-- ==== Sys2Proof/Word.lean ====
section
/-! DEFINITION. The words of the machine: bus and command words, bytes, the scalar (00_scope.md R13). -/

namespace Sys2Proof

/-- A bus word or a command word: 32 bits (R13). -/
abbrev Word := BitVec 32

/-- One byte of a buffer. -/
abbrev Byte := BitVec 8

/-- The contents of one byte buffer, byte 0 first: 32 bytes (R13, R25). -/
abbrev Bytes32 := Vector Byte 32

/-- The scalar register's width: 256 bits (R13, R23). -/
abbrev Scalar := BitVec 256

end Sys2Proof
end

