-- ==== Sys2Proof/Config.lean ====
section
/-! DEFINITION. What an implementation fixes (00_scope.md R7, R8) and the open parameters, which have no body: every claim holds for each of their values. -/

namespace Sys2Proof.Config

/-- The field prime p = 2^255 − 19 (R7, R8). -/
def P : Nat := 2 ^ 255 - 19

/-- The ladder constant a24 (R7, R8). -/
def A24 : Nat := 121665

/-- Ladder rounds of one scalar multiplication (R7). -/
def rounds : Nat := 255

/-- The base point's u-coordinate (R7, R8). -/
def baseU : Nat := 9

/-- Bytes of the bus window (20_memory.md R50). -/
def windowSize : Nat := 0x200

/-- CORE_BASE, the bus address of the window: OPEN, a platform parameter (R7, R50). -/
opaque coreBase : Nat

/-- The open part of LAT(op): see `lat`. -/
opaque latOpen : Nat → Nat

/-- The open part of LAT_ERR(op, code): see `latErr`. -/
opaque latErrOpen : Nat → Nat → Nat

/-- LAT(op), in core clock cycles: OPEN, positive, a constant per opcode (R7, 70_reset_and_hazards.md R249). -/
def lat (op : Nat) : Nat := latOpen op + 1

/-- LAT_ERR(op, code): OPEN, positive, a constant per opcode and error code (R7, R247). -/
def latErr (op code : Nat) : Nat := latErrOpen op code + 1

end Sys2Proof.Config
end

