-- ==== Sys2Proof/Syntax.lean ====
section
/-! DEFINITION. The command set: one constructor per row of the opcode map (30_encoding.md R84), the pseudo-instructions (R89), and the fields of a raw command word (R81). -/

namespace Sys2Proof

/-- A field register F0 to F15: every value of the 4-bit field names one (R82). -/
abbrev FReg := Fin 16

/-- A byte buffer B0 to B3 (R82). -/
abbrev Buf := Fin 4

/-- The ladder's names of F11 to F15 (10_state.md R21). -/
abbrev rX1 : FReg := 11
abbrev rX2 : FReg := 12
abbrev rZ2 : FReg := 13
abbrev rX3 : FReg := 14
abbrev rZ3 : FReg := 15

/-- The commands, operands in the order D, A, B, S (R84, R88). -/
inductive Instr where
  /-- FADD fd, fa, fb (40_field_arithmetic.md R101) -/
  | fadd (fd fa fb : FReg)
  /-- FSUB fd, fa, fb (R102) -/
  | fsub (fd fa fb : FReg)
  /-- FMUL fd, fa, fb (R103) -/
  | fmul (fd fa fb : FReg)
  /-- FINV fd, fa (R104) -/
  | finv (fd fa : FReg)
  /-- FCSWAP fa, fb, s (R105) -/
  | fcswap (fa fb : FReg) (c : Bool)
  /-- DECU fd, bn (41_codec.md R132) -/
  | decu (fd : FReg) (bn : Buf)
  /-- ENC bn, fa (R136) -/
  | enc (bn : Buf) (fa : FReg)
  /-- CLAMP bn (R134) -/
  | clamp (bn : Buf)
  /-- KLDR bn (R137) -/
  | kldr (bn : Buf)
  /-- KENC bn (R138) -/
  | kenc (bn : Buf)
  /-- LINIT fa (42_ladder.md R162) -/
  | linit (fa : FReg)
  /-- LSTEP (R163) -/
  | lstep
  /-- LFIN fd (R164) -/
  | lfin (fd : FReg)
  /-- LADDER fd, fa (R165) -/
  | ladder (fd fa : FReg)
  /-- X25519 bo, bk, bu (43_x25519.md R191) -/
  | x25519 (bo bk bu : Buf)
  /-- BASEMUL bo, bk (R192) -/
  | basemul (bo bk : Buf)
  deriving DecidableEq, Repr

/-- FSQR fd, fa (R89). -/
abbrev Instr.fsqr (fd fa : FReg) : Instr := .fmul fd fa fa

/-- FDBL fd, fa (R89). -/
abbrev Instr.fdbl (fd fa : FReg) : Instr := .fadd fd fa fa

/-- FSWAP fa, fb (R89). -/
abbrev Instr.fswap (fa fb : FReg) : Instr := .fcswap fa fb true

/-- FNOP (R89). -/
abbrev Instr.fnop : Instr := .fcswap 0 0 false

/-- The fields of any command word, legal or not (R81). -/
structure Fields where
  op : Nat
  d : Nat
  a : Nat
  b : Nat
  s : Nat
  rsv : Nat
  deriving DecidableEq, Repr

/-- Why a word is no command: the four kinds of illegal encoding of R86, a nonzero S apart from the other unused fields.
The core reports one code for all of them (60_exceptions.md R214). -/
inductive Illegal where
  /-- an OP value that R84 does not assign -/
  | opcode
  /-- a nonzero RSV field -/
  | reserved
  /-- a nonzero unused D, A or B field -/
  | unused
  /-- a nonzero S for an opcode other than FCSWAP -/
  | immediate
  /-- a buffer field of 4 to 15 -/
  | bufferIndex
  deriving DecidableEq, Repr

end Sys2Proof
end

