-- ==== Sys2Proof/WellFormed.lean ====
section
/-! DEFINITION. Which field contents are a command: the operand kinds of R82, the columns of R84 and the illegal encodings of R86 (30_encoding.md), over the fields of R81. An `Instr` carries operands that fit by their types; the check is about raw fields, where ill-formed ones exist. -/

namespace Sys2Proof

/-- How an opcode reads its D, A or B field (R82). -/
inductive OperandKind where
  | freg
  | buffer
  | none
  deriving DecidableEq, Repr

/-- What one opcode asks of the fields: the kinds of D, A and B, and whether S may be set (R84). -/
structure Shape where
  d : OperandKind
  a : OperandKind
  b : OperandKind
  s : Bool
  deriving DecidableEq, Repr

/-- The shape of each assigned opcode (R84). -/
def shapeOf (op : Nat) : Option Shape :=
  match op with
  | 0x01 => some ⟨.freg, .freg, .freg, false⟩
  | 0x02 => some ⟨.freg, .freg, .freg, false⟩
  | 0x03 => some ⟨.freg, .freg, .freg, false⟩
  | 0x04 => some ⟨.freg, .freg, .none, false⟩
  | 0x05 => some ⟨.none, .freg, .freg, true⟩
  | 0x10 => some ⟨.freg, .buffer, .none, false⟩
  | 0x11 => some ⟨.buffer, .freg, .none, false⟩
  | 0x12 => some ⟨.none, .buffer, .none, false⟩
  | 0x13 => some ⟨.none, .buffer, .none, false⟩
  | 0x14 => some ⟨.buffer, .none, .none, false⟩
  | 0x20 => some ⟨.none, .freg, .none, false⟩
  | 0x21 => some ⟨.none, .none, .none, false⟩
  | 0x22 => some ⟨.freg, .none, .none, false⟩
  | 0x23 => some ⟨.freg, .freg, .none, false⟩
  | 0x30 => some ⟨.buffer, .buffer, .buffer, false⟩
  | 0x31 => some ⟨.buffer, .buffer, .none, false⟩
  | _ => Option.none

/-- A field holds an index of its kind. -/
def OperandKind.fits (k : OperandKind) (v : Nat) : Bool :=
  match k with
  | .freg => decide (v < 16)
  | .buffer => decide (v < 4)
  | .none => v == 0

/-- The first reason, in the order of R86, for which the fields are no command; none for a command. -/
def Fields.illegal (x : Fields) : Option Illegal :=
  match shapeOf x.op with
  | Option.none => some .opcode
  | some sh =>
    if x.rsv ≠ 0 then some .reserved
    else if (sh.d = .none ∧ x.d ≠ 0) ∨ (sh.a = .none ∧ x.a ≠ 0) ∨ (sh.b = .none ∧ x.b ≠ 0) then some .unused
    else if sh.s = false ∧ x.s ≠ 0 then some .immediate
    else if sh.d.fits x.d && sh.a.fits x.a && sh.b.fits x.b then Option.none
    else some .bufferIndex

/-- The fields are those of a command. -/
def Fields.wf (x : Fields) : Bool := x.illegal.isNone

/-- The fields a command is written with, in the columns of R84. -/
def Instr.fields (i : Instr) : Fields :=
  match i with
  | .fadd fd fa fb => ⟨0x01, fd, fa, fb, 0, 0⟩
  | .fsub fd fa fb => ⟨0x02, fd, fa, fb, 0, 0⟩
  | .fmul fd fa fb => ⟨0x03, fd, fa, fb, 0, 0⟩
  | .finv fd fa => ⟨0x04, fd, fa, 0, 0, 0⟩
  | .fcswap fa fb c => ⟨0x05, 0, fa, fb, c.toNat, 0⟩
  | .decu fd bn => ⟨0x10, fd, bn, 0, 0, 0⟩
  | .enc bn fa => ⟨0x11, bn, fa, 0, 0, 0⟩
  | .clamp bn => ⟨0x12, 0, bn, 0, 0, 0⟩
  | .kldr bn => ⟨0x13, 0, bn, 0, 0, 0⟩
  | .kenc bn => ⟨0x14, bn, 0, 0, 0, 0⟩
  | .linit fa => ⟨0x20, 0, fa, 0, 0, 0⟩
  | .lstep => ⟨0x21, 0, 0, 0, 0, 0⟩
  | .lfin fd => ⟨0x22, fd, 0, 0, 0, 0⟩
  | .ladder fd fa => ⟨0x23, fd, fa, 0, 0, 0⟩
  | .x25519 bo bk bu => ⟨0x30, bo, bk, bu, 0, 0⟩
  | .basemul bo bk => ⟨0x31, bo, bk, 0, 0, 0⟩

/-- A command's fields pass the check. -/
def Instr.wf (i : Instr) : Bool := i.fields.wf

end Sys2Proof
end

