-- ==== Sys2Proof/Decode.lean ====
section
/-! DEFINITION. Decoding (30_encoding.md R84, R85), total on all 2^32 words; AFTER it the encoder and the assembler text of R88. -/

namespace Sys2Proof

/-- `w[hi:lo]` (00_scope.md R9). -/
def bitsOf (w : Word) (hi lo : Nat) : Nat := (w.toNat >>> lo) % 2 ^ (hi - lo + 1)

/-- The fields of a word (R81). -/
def fieldsOf (w : Word) : Fields :=
  { op := bitsOf w 7 0, d := bitsOf w 11 8, a := bitsOf w 15 12, b := bitsOf w 19 16, s := bitsOf w 20 20, rsv := bitsOf w 31 21 }

/-- The field register that the 4 bits from `lo` up name (R82). -/
def fregAt (w : Word) (lo : Nat) : FReg := Fin.ofNat 16 (w.toNat >>> lo)

/-- The buffer that the 2 bits from `lo` up name (R82). -/
def bufAt (w : Word) (lo : Nat) : Buf := Fin.ofNat 4 (w.toNat >>> lo)

/-- One row of the opcode map: `w` encodes the row's command when `w & mask = pattern` (R84). -/
structure OpRow where
  pattern : Word
  mask : Word
  build : Word → Instr

/-- The word's fixed bits are the row's. -/
def OpRow.matches (r : OpRow) (w : Word) : Bool := w &&& r.mask == r.pattern

/-- The opcode map, row by row (R84). -/
def opRows : List OpRow :=
  [ ⟨0x00000001#32, 0xFFF000FF#32, fun w => .fadd (fregAt w 8) (fregAt w 12) (fregAt w 16)⟩,
    ⟨0x00000002#32, 0xFFF000FF#32, fun w => .fsub (fregAt w 8) (fregAt w 12) (fregAt w 16)⟩,
    ⟨0x00000003#32, 0xFFF000FF#32, fun w => .fmul (fregAt w 8) (fregAt w 12) (fregAt w 16)⟩,
    ⟨0x00000004#32, 0xFFFF00FF#32, fun w => .finv (fregAt w 8) (fregAt w 12)⟩,
    ⟨0x00000005#32, 0xFFE00FFF#32, fun w => .fcswap (fregAt w 12) (fregAt w 16) (w.getLsbD 20)⟩,
    ⟨0x00000010#32, 0xFFFFC0FF#32, fun w => .decu (fregAt w 8) (bufAt w 12)⟩,
    ⟨0x00000011#32, 0xFFFF0CFF#32, fun w => .enc (bufAt w 8) (fregAt w 12)⟩,
    ⟨0x00000012#32, 0xFFFFCFFF#32, fun w => .clamp (bufAt w 12)⟩ ] ++
  [ ⟨0x00000013#32, 0xFFFFCFFF#32, fun w => .kldr (bufAt w 12)⟩,
    ⟨0x00000014#32, 0xFFFFFCFF#32, fun w => .kenc (bufAt w 8)⟩,
    ⟨0x00000020#32, 0xFFFF0FFF#32, fun w => .linit (fregAt w 12)⟩,
    ⟨0x00000021#32, 0xFFFFFFFF#32, fun _ => .lstep⟩,
    ⟨0x00000022#32, 0xFFFFF0FF#32, fun w => .lfin (fregAt w 8)⟩,
    ⟨0x00000023#32, 0xFFFF00FF#32, fun w => .ladder (fregAt w 8) (fregAt w 12)⟩,
    ⟨0x00000030#32, 0xFFFCCCFF#32, fun w => .x25519 (bufAt w 8) (bufAt w 12) (bufAt w 16)⟩,
    ⟨0x00000031#32, 0xFFFFCCFF#32, fun w => .basemul (bufAt w 8) (bufAt w 12)⟩ ]

/-- The name under which a word that matches no row is rejected (R86; log entry 15). -/
def whyIllegal (w : Word) : Illegal := ((fieldsOf w).illegal).getD .opcode

/-- `decode(w)`: the command of the row that matches, else Illegal (R85). -/
def decode (w : Word) : Except Illegal Instr :=
  match opRows.find? (fun r => r.matches w) with
  | some r => .ok (r.build w)
  | none => .error (whyIllegal w)

/-- The instruction the decoder reads from a row's bits, numbered as spec/opcode_table.json numbers them: a command is one
32-bit word (R80), and the bits above `nbits` are 0. -/
def decodeTableWord (nbits w : Nat) : Option Instr :=
  match decode (BitVec.ofNat 32 (w % 2 ^ nbits)) with
  | .ok i => some i
  | .error _ => none

/-- `w = OP | D<<8 | A<<12 | B<<16 | S<<20` (R88). -/
def packWord (op d a b : Nat) (c : Bool) : Word :=
  BitVec.ofNat 32 (op ||| d <<< 8 ||| a <<< 12 ||| b <<< 16 ||| c.toNat <<< 20)

/-- The word of a command (R84, R88). -/
def encode (i : Instr) : Word :=
  match i with
  | .fadd fd fa fb => packWord 0x01 fd fa fb false
  | .fsub fd fa fb => packWord 0x02 fd fa fb false
  | .fmul fd fa fb => packWord 0x03 fd fa fb false
  | .finv fd fa => packWord 0x04 fd fa 0 false
  | .fcswap fa fb c => packWord 0x05 0 fa fb c
  | .decu fd bn => packWord 0x10 fd bn 0 false
  | .enc bn fa => packWord 0x11 bn fa 0 false
  | .clamp bn => packWord 0x12 0 bn 0 false
  | .kldr bn => packWord 0x13 0 bn 0 false
  | .kenc bn => packWord 0x14 bn 0 0 false
  | .linit fa => packWord 0x20 0 fa 0 false
  | .lstep => packWord 0x21 0 0 0 false
  | .lfin fd => packWord 0x22 fd 0 0 false
  | .ladder fd fa => packWord 0x23 fd fa 0 false
  | .x25519 bo bk bu => packWord 0x30 bo bk bu false
  | .basemul bo bk => packWord 0x31 bo bk 0 false

/-- A field register's spelling (R88). -/
def fregText (r : FReg) : String := "f" ++ toString r.val

/-- A buffer's spelling (R88). -/
def bufText (n : Buf) : String := "b" ++ toString n.val

/-- Operands separated as R88 separates them. -/
def operandText (mnemonic : String) (ops : List String) : String :=
  match ops with
  | [] => mnemonic
  | o :: os => os.foldl (fun t x => t ++ ", " ++ x) (mnemonic ++ " " ++ o)

/-- A command's assembler text (R88). -/
def asmText (i : Instr) : String :=
  match i with
  | .fadd fd fa fb => operandText "FADD" [fregText fd, fregText fa, fregText fb]
  | .fsub fd fa fb => operandText "FSUB" [fregText fd, fregText fa, fregText fb]
  | .fmul fd fa fb => operandText "FMUL" [fregText fd, fregText fa, fregText fb]
  | .finv fd fa => operandText "FINV" [fregText fd, fregText fa]
  | .fcswap fa fb c => operandText "FCSWAP" [fregText fa, fregText fb, toString c.toNat]
  | .decu fd bn => operandText "DECU" [fregText fd, bufText bn]
  | .enc bn fa => operandText "ENC" [bufText bn, fregText fa]
  | .clamp bn => operandText "CLAMP" [bufText bn]
  | .kldr bn => operandText "KLDR" [bufText bn]
  | .kenc bn => operandText "KENC" [bufText bn]
  | .linit fa => operandText "LINIT" [fregText fa]
  | .lstep => operandText "LSTEP" []
  | .lfin fd => operandText "LFIN" [fregText fd]
  | .ladder fd fa => operandText "LADDER" [fregText fd, fregText fa]
  | .x25519 bo bk bu => operandText "X25519" [bufText bo, bufText bk, bufText bu]
  | .basemul bo bk => operandText "BASEMUL" [bufText bo, bufText bk]

end Sys2Proof
end

