-- ==== Sys2Proof/Machine/Event.lean ====
section
/-! DEFINITION. What the agents of 00_scope.md R6 can do, as plain data: the host's bus accesses, the core's turn, the reset input. -/

namespace Sys2Proof.Machine

/-- Width of a bus access (20_memory.md R52). -/
inductive AccessSize where
  | byte
  | half
  | word
  deriving DecidableEq, Repr

/-- A read, or a write of a value. The value of a narrow write is never looked at: such a write is illegal (R52, R57). -/
inductive AccessOp where
  | read
  | write (v : Word)
  deriving DecidableEq, Repr

/-- One host bus access, at a bus address (R51). -/
structure Access where
  addr : Nat
  size : AccessSize
  op : AccessOp
  deriving DecidableEq, Repr

/-- One event of the total order of R60. The core's completion is one event in that order, so a list of these is any
interleaving (R60, 60_exceptions.md R221; log entry 1). -/
inductive Event where
  /-- the host accesses the bus -/
  | host (a : Access)
  /-- the core may complete the command in flight (60_exceptions.md R217) -/
  | coreTurn
  /-- reset as one atomic step (00_scope.md R6, 70_reset_and_hazards.md R240) -/
  | reset
  /-- the reset input is asserted and stays so (R240; log entry 4) -/
  | assertReset
  /-- the reset input is released -/
  | releaseReset
  deriving DecidableEq, Repr

end Sys2Proof.Machine
end

