-- ==== Sys2Proof/Machine/State.lean ====
section
/-! DEFINITION. The state the spec gives the core (10_state.md), the reasons a step can stop, and the state after reset (R35). -/

namespace Sys2Proof.Machine

/-- The core's state (10_state.md R20 to R31), as plain data, and three fields that say what stands around the core. -/
structure State where
  /-- F0 to F15 (R20), as integers; F11 to F15 are also X1, X2, Z2, X3, Z3 (R21) -/
  f : Vector Nat 16
  /-- K (R23) -/
  k : Scalar
  /-- SWAP (R24) -/
  swap : Bool
  /-- ROUND (R24) -/
  round : BitVec 9
  /-- LACT (R24) -/
  lact : Bool
  /-- B0 to B3 (R25) -/
  buf : Vector Bytes32 4
  /-- LEN0 to LEN3 (R26) -/
  len : Vector (BitVec 6) 4
  /-- CMDLAST (R27) -/
  cmdlast : Word
  /-- CUR (R31) -/
  cur : Word
  /-- STATUS.BUSY (R28) -/
  busy : Bool
  /-- STATUS.DONE (R28) -/
  done : Bool
  /-- STATUS.ERR (R28) -/
  err : Bool
  /-- STATUS.ERRCODE (R28, 60_exceptions.md R211) -/
  errcode : BitVec 4
  /-- STATUS.CMDLOST (R28) -/
  cmdlost : Bool
  /-- STATUS.ACCERR (R28) -/
  accerr : Bool
  /-- CTRL.IE (R29) -/
  ie : Bool
  /-- the reset input is asserted (70_reset_and_hazards.md R240; log entry 4) -/
  inReset : Bool
  /-- MODEL'S OWN: the events to come, in order (20_memory.md R60; log entry 1) -/
  sched : List Event
  /-- MODEL'S OWN: the word returned to the host's last read of the window (R55; log entry 3) -/
  rdata : Option Word
  deriving DecidableEq, Repr

/-- Why the machine stops. Nothing raises a fault: the core has no trap and never halts (60_exceptions.md R210, R222, R223),
so the type has no constructor, and "no step faults" holds by the type (log entry 16). -/
inductive Fault
  deriving DecidableEq, Repr

/-- Why an instruction has no meaning. -/
inductive Refusal where
  /-- raised by exec's arm of an instruction that is not modelled yet; safe: the model stops where the hardware goes on -/
  | notModelled (mnemonic : String)
  deriving DecidableEq, Repr

/-- The state right after reset: every value is R35's, the reset input is released, no event is pending and nothing has
been read (log entries 1 and 3). -/
def State.reset : State :=
  { f := Vector.replicate 16 0
    k := 0
    swap := false
    round := 0
    lact := false
    buf := Vector.replicate 4 (Vector.replicate 32 0)
    len := Vector.replicate 4 0
    cmdlast := 0
    cur := 0
    busy := false
    done := false
    err := false
    errcode := 0
    cmdlost := false
    accerr := false
    ie := false
    inReset := false
    sched := []
    rdata := none }

end Sys2Proof.Machine
end

