-- ==== Sys2Proof/Machine/Flags.lean ====
section
/-! DEFINITION. Every computation on the status bits (10_state.md R28 to R30), the words the host reads them as (20_memory.md R55), and the interrupt output (60_exceptions.md R220). -/

namespace Sys2Proof.Machine

/-- STATUS at the completion of a command that succeeds (R217). -/
def State.markSuccess (s : State) : State :=
  { s with busy := false, done := true, err := false, errcode := 0 }

/-- STATUS at the completion of a command that fails with a code (R212, R217). -/
def State.markError (code : BitVec 4) (s : State) : State :=
  { s with busy := false, done := true, err := true, errcode := code }

/-- STATUS at the acceptance of a command (R218). -/
def State.markAccepted (s : State) : State :=
  { s with busy := true, done := false, err := false, errcode := 0 }

/-- `raise AccErr()` (20_memory.md R57, R58). -/
def State.raiseAccErr (s : State) : State := { s with accerr := true }

/-- A command write is lost (R219). -/
def State.raiseCmdLost (s : State) : State := { s with cmdlost := true }

/-- A host write of `v` to STATUS: write-1-to-clear of bits 1, 8 and 9 (20_memory.md R56). -/
def State.clearStatus (v : Word) (s : State) : State :=
  { s with
    done := s.done && !v.getLsbD 1
    cmdlost := s.cmdlost && !v.getLsbD 8
    accerr := s.accerr && !v.getLsbD 9 }

/-- A host write of `v` to CTRL (R56). -/
def State.setCtrl (v : Word) (s : State) : State := { s with ie := v.getLsbD 0 }

/-- STATUS as a word (R28, R55). -/
def State.statusWord (s : State) : Word :=
  0#22 ++ BitVec.ofBool s.accerr ++ BitVec.ofBool s.cmdlost ++ s.errcode ++ 0#1 ++
    BitVec.ofBool s.err ++ BitVec.ofBool s.done ++ BitVec.ofBool s.busy

/-- CTRL as a word (R29, R55). -/
def State.ctrlWord (s : State) : Word := 0#31 ++ BitVec.ofBool s.ie

/-- LSTATE as a word (R30, R55). -/
def State.lstateWord (s : State) : Word :=
  0#14 ++ BitVec.ofBool s.lact ++ BitVec.ofBool s.swap ++ 0#7 ++ s.round

/-- The interrupt output: a level, and no state of its own (R220, 10_state.md R34). -/
def State.irq (s : State) : Bool := s.ie && s.done

end Sys2Proof.Machine
end

