-- ==== Sys2Proof/Machine/Ops.lean ====
section
/-! DEFINITION. The named operations every command is written over: registers, buffers and byte order, and how a command is accepted, completes, and completes with an error. -/

namespace Sys2Proof.Machine

/-- `LE(s)` of a byte sequence (00_scope.md R12). -/
def leList : List Byte → Nat
  | [] => 0
  | b :: bs => b.toNat + 256 * leList bs

/-- `LE(s)` of a buffer's 32 bytes (R12). -/
def le (v : Bytes32) : Nat := leList v.toList

/-- `LE32(x)`: byte i is `x[8i+7:8i]` (R12). -/
def le32 (x : Nat) : Bytes32 := Vector.ofFn fun i => BitVec.ofNat 8 (x >>> (8 * i.val))

/-- Read a field register (R10, 10_state.md R20). -/
def State.getF (s : State) (r : FReg) : Nat := s.f[r]

/-- Write a field register; an alias is the same cell (10_state.md R20, R21). -/
def State.setF (r : FReg) (v : Nat) (s : State) : State := { s with f := s.f.set r.val v r.isLt }

/-- Write the scalar register (R23). -/
def State.setK (v : Scalar) (s : State) : State := { s with k := v }

/-- Write the ladder control fields (R24). -/
def State.setLadder (swap : Bool) (round : BitVec 9) (lact : Bool) (s : State) : State :=
  { s with swap := swap, round := round, lact := lact }

/-- Read a buffer's 32 bytes (R25). -/
def State.getBuf (s : State) (n : Buf) : Bytes32 := s.buf[n]

/-- Read a length register (R26). -/
def State.getLen (s : State) (n : Buf) : BitVec 6 := s.len[n]

/-- Write a buffer's bytes and nothing else. -/
def State.putBuf (n : Buf) (v : Bytes32) (s : State) : State := { s with buf := s.buf.set n.val v n.isLt }

/-- Write a length register. -/
def State.putLen (n : Buf) (v : BitVec 6) (s : State) : State := { s with len := s.len.set n.val v n.isLt }

/-- A command's output: all 32 bytes of a buffer, and its length becomes 32 (R26). -/
def State.setBuf (n : Buf) (v : Bytes32) (s : State) : State := (s.putBuf n v).putLen n 32#6

/-- The command errors (60_exceptions.md R211). -/
inductive CmdError where
  | invalidLength
  | illegalCommand
  | sequence
  deriving DecidableEq, Repr

/-- The error codes (R211). -/
def CmdError.code : CmdError → BitVec 4
  | .invalidLength => 1
  | .illegalCommand => 2
  | .sequence => 3

/-- What a command's rule gives: the state it has written, or the error it raised (00_scope.md R10, `raise CmdError`). -/
abbrev Result := Except CmdError State

/-- A command that fails: no state changes but STATUS (60_exceptions.md R212). The core has no other exception, saves no
state and has no handler (R210, R222), so there is no return from one (R223). -/
def State.fail (e : CmdError) (s : State) : Host.Outcome State Fault Refusal := .next (s.markError e.code)

/-- Completion of a command whose rule ran on `s` (R217): its writes and STATUS at one event, or the error and no write. -/
def State.conclude (s : State) (r : Result) : Host.Outcome State Fault Refusal :=
  match r with
  | .ok t => .next t.markSuccess
  | .error e => s.fail e

/-- Acceptance of a command word (R218). -/
def State.accept (v : Word) (s : State) : State := { s.markAccepted with cur := v, cmdlast := v }

/-- Assertion of reset: every state element at its reset value (70_reset_and_hazards.md R240, 10_state.md R35). The events
to come and the word last read are the outside world's and stay. -/
def State.resetCore (s : State) : State := { State.reset with sched := s.sched, rdata := s.rdata }

end Sys2Proof.Machine
end

