-- ==== Sys2Proof/Machine/Bus.lean ====
section
/-! DEFINITION. The bus window (20_memory.md): the register map R53, legal accesses R52, reads R55, writes R56, illegal and blocked accesses R57 and R58. -/

namespace Sys2Proof.Machine

open Sys2Proof.Config

/-- What an assigned offset of the window names (R53). -/
inductive Reg where
  | cmd
  | status
  | ctrl
  | lstate
  | len (n : Buf)
  | word (n : Buf) (j : Fin 8)
  deriving DecidableEq, Repr

/-- The register map: the register at a window offset, none at a reserved or misaligned one (R52, R53, R54). -/
def regAt (off : Nat) : Option Reg :=
  if off % 4 ≠ 0 then none
  else if off = 0x000 then some .cmd
  else if off = 0x004 then some .status
  else if off = 0x008 then some .ctrl
  else if off = 0x00C then some .lstate
  else if off < 0x020 then some (.len (Fin.ofNat 4 ((off - 0x010) / 4)))
  else if off < 0x100 then none
  else if off < 0x180 then some (.word (Fin.ofNat 4 ((off - 0x100) / 0x20)) (Fin.ofNat 8 ((off - 0x100) % 0x20 / 4)))
  else none

/-- The register a legal access reaches: 32 bits wide, aligned, at an assigned offset (R52). -/
def accessTarget (off : Nat) (size : AccessSize) : Option Reg :=
  match size with
  | .word => regAt off
  | .byte => none
  | .half => none

/-- Registers blocked while BUSY = 1 (R53, R58). -/
def Reg.blockedWhileBusy (r : Reg) : Bool :=
  match r with
  | .len _ => true
  | .word _ _ => true
  | .cmd => false
  | .status => false
  | .ctrl => false
  | .lstate => false

/-- The access to this register is blocked now (R58). -/
def State.blocks (s : State) (r : Reg) : Bool := s.busy && r.blockedWhileBusy

/-- Byte `4j + i` of a buffer (R54). -/
def laneIndex (j : Fin 8) (i : Fin 4) : Fin 32 := ⟨4 * j.val + i.val, by omega⟩

/-- A buffer word, little-endian lanes (R54). -/
def State.bufWord (s : State) (n : Buf) (j : Fin 8) : Word :=
  let b := s.getBuf n
  b[laneIndex j 3] ++ b[laneIndex j 2] ++ b[laneIndex j 1] ++ b[laneIndex j 0]

/-- Put lane i of a word into a buffer's bytes (R54). -/
def putLane (v : Word) (j : Fin 8) (i : Fin 4) (b : Bytes32) : Bytes32 :=
  b.set (laneIndex j i).val (BitVec.ofNat 8 (v.toNat >>> (8 * i.val))) (laneIndex j i).isLt

/-- Write a buffer word; LEN does not change (R54, 10_state.md R26). -/
def State.setBufWord (n : Buf) (j : Fin 8) (v : Word) (s : State) : State :=
  s.putBuf n (putLane v j 3 (putLane v j 2 (putLane v j 1 (putLane v j 0 (s.getBuf n)))))

/-- The word a legal, unblocked read returns (R55). -/
def State.regValue (s : State) (r : Reg) : Word :=
  match r with
  | .cmd => s.cmdlast
  | .status => s.statusWord
  | .ctrl => s.ctrlWord
  | .lstate => s.lstateWord
  | .len n => (s.getLen n).setWidth 32
  | .word n j => s.bufWord n j

/-- A write to CMD: accepted while idle, lost while a command is in flight (R56, 60_exceptions.md R218, R219). -/
def State.writeCmd (v : Word) (s : State) : State :=
  if s.busy then s.raiseCmdLost else s.accept v

/-- The effect of a legal, unblocked write (R56). -/
def State.writeReg (r : Reg) (v : Word) (s : State) : State :=
  match r with
  | .cmd => s.writeCmd v
  | .status => s.clearStatus v
  | .ctrl => s.setCtrl v
  | .lstate => s
  | .len n => s.putLen n (v.setWidth 6)
  | .word n j => s.setBufWord n j v

/-- The word returned to the host (log entry 3). -/
def State.returnWord (v : Word) (s : State) : State := { s with rdata := some v }

/-- A read at a window offset (R55, R57, R58). -/
def State.busRead (off : Nat) (size : AccessSize) (s : State) : State :=
  match accessTarget off size with
  | none => s.raiseAccErr.returnWord 0
  | some r => if s.blocks r then s.raiseAccErr.returnWord 0 else s.returnWord (s.regValue r)

/-- A write at a window offset (R56, R57, R58). -/
def State.busWrite (off : Nat) (size : AccessSize) (v : Word) (s : State) : State :=
  match accessTarget off size with
  | none => s.raiseAccErr
  | some r => if s.blocks r then s.raiseAccErr else s.writeReg r v

/-- An access at a window offset. While reset is asserted it has no effect, and a read returns 0 (70_reset_and_hazards.md R240). -/
def State.windowAccess (off : Nat) (size : AccessSize) (op : AccessOp) (s : State) : State :=
  match op with
  | .read => if s.inReset then s.returnWord 0 else s.busRead off size
  | .write v => if s.inReset then s else s.busWrite off size v

/-- The bus address lies in the window (R51). -/
def inWindow (addr : Nat) : Bool := decide (coreBase ≤ addr ∧ addr < coreBase + windowSize)

/-- One host bus access: the core sees no access outside its window (R51). -/
def State.hostAccess (a : Access) (s : State) : State :=
  if inWindow a.addr then s.windowAccess (a.addr - coreBase) a.size a.op else s

end Sys2Proof.Machine
end

