-- ==== Sys2Proof/Machine/Operands.lean ====
section
/-! DEFINITION. The checks on a command's buffer operands (41_codec.md R130, 60_exceptions.md R213). Field-register and output operands have no check. -/

namespace Sys2Proof.Machine

/-- An input buffer must declare 32 bytes: else INVALID_LENGTH, and the rest of the rule does not run (R130, R213). -/
def State.requireLen (s : State) (n : Buf) (r : Result) : Result :=
  if s.getLen n = 32#6 then r else .error .invalidLength

end Sys2Proof.Machine
end

