-- ==== Sys2Proof/Machine/FieldArith.lean ====
section
/-! DEFINITION. Field arithmetic (00_scope.md R11), the conditional swap (42_ladder.md R161) and the commands FADD, FSUB, FMUL, FINV, FCSWAP (40_field_arithmetic.md). -/

namespace Sys2Proof.Machine

open Sys2Proof.Config

/-- `modp(v)`: the residue in [0, p) of any integer, a negative one too (R11). -/
def modp (v : Int) : Nat := (v % (P : Int)).toNat

/-- `fadd(a,b) = modp(a + b)` (R11). -/
def fadd (a b : Nat) : Nat := modp ((a : Int) + (b : Int))

/-- `fsub(a,b) = modp(a − b)` (R11). -/
def fsub (a b : Nat) : Nat := modp ((a : Int) - (b : Int))

/-- `fmul(a,b) = modp(a · b)` (R11). -/
def fmul (a b : Nat) : Nat := modp ((a : Int) * (b : Int))

/-- `a^e` mod p for an exponent of at most `n` bits, by squaring and multiplying over the exponent's bits (40_field_arithmetic.md R107).
The chain is implementation-defined and only its value is specified (log entry 9). -/
def powp : Nat → Nat → Nat → Nat
  | 0, _, _ => 1
  | n + 1, a, e => if e % 2 = 1 then fmul a (powp n (fmul a a) (e / 2)) else powp n (fmul a a) (e / 2)

/-- `finv(a) = modp(a^(p−2))` (R11, R104). -/
def finv (a : Nat) : Nat := powp 255 a (P - 2)

/-- `cswap(s, a, b)`, the mask form of 42_ladder.md R161. -/
def cswap (c : Bool) (a b : Nat) : Nat × Nat :=
  let mask := (2 ^ 256 - c.toNat) % 2 ^ 256
  let dummy := mask &&& (a ^^^ b)
  (a ^^^ dummy, b ^^^ dummy)

/-- FADD fd, fa, fb (40_field_arithmetic.md R101). -/
def execFadd (fd fa fb : FReg) (s : State) : Host.Outcome State Fault Refusal :=
  s.conclude (.ok (s.setF fd (fadd (s.getF fa) (s.getF fb))))

/-- FSUB fd, fa, fb (R102). -/
def execFsub (fd fa fb : FReg) (s : State) : Host.Outcome State Fault Refusal :=
  s.conclude (.ok (s.setF fd (fsub (s.getF fa) (s.getF fb))))

/-- FMUL fd, fa, fb (R103). -/
def execFmul (fd fa fb : FReg) (s : State) : Host.Outcome State Fault Refusal :=
  s.conclude (.ok (s.setF fd (fmul (s.getF fa) (s.getF fb))))

/-- FINV fd, fa (R104). -/
def execFinv (fd fa : FReg) (s : State) : Host.Outcome State Fault Refusal :=
  s.conclude (.ok (s.setF fd (finv (s.getF fa))))

/-- FCSWAP fa, fb, s: both registers are read before either is written (R100, R105). -/
def execFcswap (fa fb : FReg) (c : Bool) (s : State) : Host.Outcome State Fault Refusal :=
  let uv := cswap c (s.getF fa) (s.getF fb)
  s.conclude (.ok ((s.setF fa uv.1).setF fb uv.2))

end Sys2Proof.Machine
end

