-- ==== Sys2Proof/Machine/Codec.lean ====
section
/-! DEFINITION. The codec commands DECU, ENC, CLAMP, KLDR, KENC (41_codec.md). -/

namespace Sys2Proof.Machine

/-- `decode_u(s)`: bit 255 masked off, then reduced (R131). -/
def decodeU (v : Bytes32) : Nat := modp ((le v % 2 ^ 255 : Nat) : Int)

/-- `clamp_bytes(s)` (R133). -/
def clampBytes (v : Bytes32) : Bytes32 :=
  (v.set 0 (v[0] &&& 0xF8#8)).set 31 ((v[31] &&& 0x7F#8) ||| 0x40#8)

/-- `clamp(s)` (R133). -/
def clampValue (v : Bytes32) : Nat := le (clampBytes v)

/-- DECU fd, bn (R132). -/
def execDecu (fd : FReg) (bn : Buf) (s : State) : Host.Outcome State Fault Refusal :=
  s.conclude (s.requireLen bn (.ok (s.setF fd (decodeU (s.getBuf bn)))))

/-- ENC bn, fa (R136). -/
def execEnc (bn : Buf) (fa : FReg) (s : State) : Host.Outcome State Fault Refusal :=
  s.conclude (.ok (s.setBuf bn (le32 (s.getF fa))))

/-- CLAMP bn (R134). -/
def execClamp (bn : Buf) (s : State) : Host.Outcome State Fault Refusal :=
  s.conclude (s.requireLen bn (.ok (s.setK (BitVec.ofNat 256 (clampValue (s.getBuf bn))))))

/-- KLDR bn (R137). -/
def execKldr (bn : Buf) (s : State) : Host.Outcome State Fault Refusal :=
  s.conclude (s.requireLen bn (.ok (s.setK (BitVec.ofNat 256 (le (s.getBuf bn))))))

/-- KENC bn (R138). -/
def execKenc (bn : Buf) (s : State) : Host.Outcome State Fault Refusal :=
  s.conclude (.ok (s.setBuf bn (le32 s.k.toNat)))

end Sys2Proof.Machine
end

