-- ==== Sys2Proof/Machine/Ladder.lean ====
section
/-! DEFINITION. The Montgomery ladder: the round, LadderFn (42_ladder.md R160) and the commands LINIT, LSTEP, LFIN, LADDER. -/

namespace Sys2Proof.Machine

open Sys2Proof.Config

/-- The projective pairs (x2 : z2) and (x3 : z3) of a ladder (R160). -/
structure Pairs where
  x2 : Nat
  z2 : Nat
  x3 : Nat
  z3 : Nat
  deriving DecidableEq, Repr

/-- The conditional swap of both coordinates (R160, step 2). -/
def Pairs.cswap (c : Bool) (q : Pairs) : Pairs :=
  let x := Machine.cswap c q.x2 q.x3
  let z := Machine.cswap c q.z2 q.z3
  { x2 := x.1, z2 := z.1, x3 := x.2, z3 := z.2 }

/-- The arithmetic of one round on swapped pairs: doubling and differential addition (R160, steps 4 and 5). -/
def Pairs.arith (x1 : Nat) (q : Pairs) : Pairs :=
  let A := fadd q.x2 q.z2
  let AA := fmul A A
  let B := fsub q.x2 q.z2
  let BB := fmul B B
  let E := fsub AA BB
  let C := fadd q.x3 q.z3
  let D := fsub q.x3 q.z3
  let DA := fmul D A
  let CB := fmul C B
  { x2 := fmul AA BB
    z2 := fmul E (fadd AA (fmul A24 E))
    x3 := fmul (fadd DA CB) (fadd DA CB)
    z3 := fmul x1 (fmul (fsub DA CB) (fsub DA CB)) }

/-- The rounds t−1 down to 0 on the pairs and the swap flag (R160). -/
def ladderRounds (k : Scalar) (x1 : Nat) : Nat → Pairs → Bool → Pairs × Bool
  | 0, q, swap => (q, swap)
  | t + 1, q, swap =>
    let bit := k.getLsbD t
    ladderRounds k x1 t ((q.cswap (swap ^^ bit)).arith x1) bit

/-- `LadderFn(k, u)` (R160). -/
def ladderFn (k : Scalar) (u : Nat) : Nat :=
  let r := ladderRounds k u rounds { x2 := 1, z2 := 0, x3 := u, z3 := 1 } false
  let q := r.1.cswap r.2
  fmul q.x2 (finv q.z2)

/-- The coordinate registers X2, Z2, X3, Z3 (10_state.md R21). -/
def State.getPairs (s : State) : Pairs :=
  { x2 := s.getF rX2, z2 := s.getF rZ2, x3 := s.getF rX3, z3 := s.getF rZ3 }

/-- Write X2, Z2, X3, Z3. -/
def State.setPairs (q : Pairs) (s : State) : State :=
  (((s.setF rX2 q.x2).setF rZ2 q.z2).setF rX3 q.x3).setF rZ3 q.z3

/-- The body of LINIT: u is read before any write (R162). -/
def linitBody (fa : FReg) (s : State) : State :=
  let u := s.getF fa
  ((s.setF rX1 u).setPairs { x2 := 1, z2 := 0, x3 := u, z3 := 1 }).setLadder false 255#9 true

/-- The body of LSTEP, without its check (R163). -/
def lstepBody (s : State) : State :=
  let t := s.round.toNat - 1
  let bit := s.k.getLsbD t
  (s.setPairs ((s.getPairs.cswap (s.swap ^^ bit)).arith (s.getF rX1))).setLadder bit (BitVec.ofNat 9 t) s.lact

/-- The body of LFIN, without its check; F[fd] is written last (R164). -/
def lfinBody (fd : FReg) (s : State) : State :=
  let q := s.getPairs.cswap s.swap
  ((s.setPairs q).setLadder s.swap s.round false).setF fd (fmul q.x2 (finv q.z2))

/-- LINIT fa (R162). -/
def execLinit (fa : FReg) (s : State) : Host.Outcome State Fault Refusal :=
  s.conclude (.ok (linitBody fa s))

/-- LSTEP (R163). -/
def execLstep (s : State) : Host.Outcome State Fault Refusal :=
  s.conclude (if s.lact = false ∨ s.round = 0#9 then .error .sequence else .ok (lstepBody s))

/-- LFIN fd (R164). -/
def execLfin (fd : FReg) (s : State) : Host.Outcome State Fault Refusal :=
  s.conclude (if s.lact = false ∨ s.round ≠ 0#9 then .error .sequence else .ok (lfinBody fd s))

/-- LADDER fd, fa: the bodies of LINIT, 255 times LSTEP, and LFIN (R165). -/
def execLadder (fd fa : FReg) (s : State) : Host.Outcome State Fault Refusal :=
  s.conclude (.ok (lfinBody fd (lstepBody^[rounds] (linitBody fa s))))

end Sys2Proof.Machine
end

