-- ==== Sys2Proof/Machine/Function.lean ====
section
/-! DEFINITION. The X25519 function (43_x25519.md R190) and the commands X25519 and BASEMUL. -/

namespace Sys2Proof.Machine

open Sys2Proof.Config

/-- `X25519Fn(kb, ub)` (R190). -/
def x25519Fn (kb ub : Bytes32) : Bytes32 :=
  le32 (ladderFn (BitVec.ofNat 256 (clampValue kb)) (decodeU ub))

/-- X25519 bo, bk, bu (R191). -/
def execX25519 (bo bk bu : Buf) (s : State) : Host.Outcome State Fault Refusal :=
  s.conclude (s.requireLen bk (s.requireLen bu (.ok (s.setBuf bo (x25519Fn (s.getBuf bk) (s.getBuf bu))))))

/-- BASEMUL bo, bk (R192). -/
def execBasemul (bo bk : Buf) (s : State) : Host.Outcome State Fault Refusal :=
  s.conclude (s.requireLen bk (.ok (s.setBuf bo (x25519Fn (s.getBuf bk) (le32 baseU)))))

end Sys2Proof.Machine
end

