-- ==== Sys2Proof/Machine/Dispatch.lean ====
section
/-! DEFINITION. The one match from a command to its meaning: the `match decode(CUR)` of 60_exceptions.md R217. -/

namespace Sys2Proof.Machine

def exec (i : Instr) (s : State) : Host.Outcome State Fault Refusal :=
  match i with
  | .fadd fd fa fb => Sys2Proof.Machine.execFadd fd fa fb s
  | .fsub fd fa fb => Sys2Proof.Machine.execFsub fd fa fb s
  | .fmul fd fa fb => Sys2Proof.Machine.execFmul fd fa fb s
  | .finv fd fa => Sys2Proof.Machine.execFinv fd fa s
  | .fcswap fa fb c => Sys2Proof.Machine.execFcswap fa fb c s
  | .decu fd bn => Sys2Proof.Machine.execDecu fd bn s
  | .enc bn fa => Sys2Proof.Machine.execEnc bn fa s
  | .clamp bn => Sys2Proof.Machine.execClamp bn s
  | .kldr bn => Sys2Proof.Machine.execKldr bn s
  | .kenc bn => Sys2Proof.Machine.execKenc bn s
  | .linit fa => Sys2Proof.Machine.execLinit fa s
  | .lstep => Sys2Proof.Machine.execLstep s
  | .lfin fd => Sys2Proof.Machine.execLfin fd s
  | .ladder fd fa => Sys2Proof.Machine.execLadder fd fa s
  | .x25519 bo bk bu => Sys2Proof.Machine.execX25519 bo bk bu s
  | .basemul bo bk => Sys2Proof.Machine.execBasemul bo bk s

end Sys2Proof.Machine
end

