-- ==== Sys2Proof/Machine/Agents.lean ====
section
/-! DEFINITION. One event of each agent (00_scope.md R6): the core's completion (60_exceptions.md R217), a host access, reset (70_reset_and_hazards.md R240). -/

namespace Sys2Proof.Machine

/-- `complete()`: decode CUR, then run the command's rule, or fail with ILLEGAL_COMMAND (R214, R217). -/
def complete (s : State) : Host.Outcome State Fault Refusal :=
  match decode s.cur with
  | .ok i => exec i s
  | .error _ => s.fail .illegalCommand

/-- The core's turn: the completion is enabled iff BUSY = 1; an idle core only waits (R217, R226). -/
def coreTurn (s : State) : Host.Outcome State Fault Refusal :=
  if s.busy then complete s else .next s

/-- One event of the total order of 20_memory.md R60. -/
def runEvent (e : Event) (s : State) : Host.Outcome State Fault Refusal :=
  match e with
  | .host a => .next (s.hostAccess a)
  | .coreTurn => coreTurn s
  | .reset => .next s.resetCore
  | .assertReset => .next { s.resetCore with inReset := true }
  | .releaseReset => .next { s with inReset := false }

/-- What is left when the next event is taken. -/
def State.popEvent (s : State) : State := { s with sched := s.sched.tail }

/-- The next event; when the outside world has nothing more to do the core's turn comes, which is the weak fairness of
70_reset_and_hazards.md R249 (log entry 1). -/
def State.nextEvent (s : State) : Event := s.sched.headD .coreTurn

/-- A command word in flight, and the core's turn next: how a word is placed so that the next step runs it (log entry 2). -/
def State.placeCommand (v : Word) (s : State) : State :=
  { s.accept v with inReset := false, sched := .coreTurn :: s.sched }

end Sys2Proof.Machine
end

