-- ==== Sys2Proof/Machine/Step.lean ====
section
/-! DEFINITION. One step of the machine: the next event of the total order (20_memory.md R60). -/

namespace Sys2Proof.Machine

/-- Take the next event and run it. -/
def step (s : State) : Host.Outcome State Fault Refusal := runEvent s.nextEvent s.popEvent

/-- `s` with a command word accepted and the core's turn next, so that the very next step runs it. -/
def State.withFetchWord (s : State) (nbits w : Nat) : State :=
  s.placeCommand (BitVec.ofNat 32 (w % 2 ^ nbits))

end Sys2Proof.Machine
end

