-- ==== Sys2Proof/Machine/Timing.lean ====
section
/-! DEFINITION. The latency the spec gives the command in flight (70_reset_and_hazards.md R247): a constant of its opcode, or of its opcode and error code. No step depends on it (R249; log entry 10). -/

namespace Sys2Proof.Machine

open Sys2Proof.Config

/-- Clock cycles from acceptance to completion when the completion leaves `t` (R247). -/
def latencyOf (op : Nat) (t : State) : Nat := if t.err then latErr op t.errcode.toNat else lat op

/-- The latency of the command in flight (R247). -/
def State.latency (s : State) : Nat :=
  match complete s with
  | .next t => latencyOf (fieldsOf s.cur).op t
  | .fault _ => 0
  | .refused _ => 0

end Sys2Proof.Machine
end

