-- ==== Sys2Proof/Safety.lean ====
section
/-! DEFINITION. What a legal state is, in the terms claims use. -/

namespace Sys2Proof.Machine

open Sys2Proof.Config

/-- Every field register holds a reduced value (10_state.md R20, R22). -/
abbrev State.reduced (s : State) : Prop := ∀ r : FReg, s.getF r < P

/-- The legal values of STATUS (R28): BUSY = 1 implies DONE = 0, ERR = 0 and ERRCODE = 0; ERR = 0 if and only if ERRCODE = 0; ERRCODE is 0 to 3. -/
abbrev State.statusLegal (s : State) : Prop :=
  (s.busy = true → s.done = false ∧ s.err = false ∧ s.errcode = 0) ∧ (s.err = false ↔ s.errcode = 0) ∧ s.errcode.toNat ≤ 3

/-- ROUND is 0 to 255, and rounds are left to run only while a ladder is open (R24). -/
abbrev State.ladderLegal (s : State) : Prop := s.round.toNat ≤ 255 ∧ (s.lact = false → s.round = 0)

/-- CMDLAST equals CUR while a command is in flight (R31). -/
abbrev State.inFlightLegal (s : State) : Prop := s.busy = true → s.cmdlast = s.cur

/-- While reset is asserted every state element is at its reset value (70_reset_and_hazards.md R240). -/
abbrev State.resetLegal (s : State) : Prop :=
  s.inReset = true → s = { State.reset with sched := s.sched, rdata := s.rdata, inReset := true }

/-- The invariant of the machine. -/
structure State.Inv (s : State) : Prop where
  reduced : s.reduced
  status : s.statusLegal
  ladder : s.ladderLegal
  inFlight : s.inFlightLegal
  resetHeld : s.resetLegal

/-- A failed command's state: nothing changes but STATUS, which holds the code (60_exceptions.md R212). -/
abbrev State.failedWith (s : State) (code : BitVec 4) : State :=
  { s with busy := false, done := true, err := true, errcode := code }

/-- `LE(s)` as the sum of 00_scope.md R12: the bytes, each times its power of 256. -/
def leSum (v : Bytes32) : Nat := ∑ i : Fin 32, v[i].toNat * 256 ^ i.val

/-- Commands one after the other, each at its completion (42_ladder.md R165, 43_x25519.md R195). -/
def execAll : List Instr → State → Host.Outcome State Fault Refusal
  | [], s => .next s
  | i :: is, s =>
    match exec i s with
    | .next t => execAll is t
    | .fault r => .fault r
    | .refused r => .refused r

/-- LINIT on a register, then n ladder steps (R162, R163). -/
def openLadder (fa : FReg) (n : Nat) : List Instr := .linit fa :: List.replicate n .lstep

/-- The buffers a command takes as an input: those whose length is checked (60_exceptions.md R213). -/
def inputBuffers (i : Instr) : List Buf :=
  match i with
  | .decu _ bn => [bn]
  | .clamp bn => [bn]
  | .kldr bn => [bn]
  | .x25519 _ bk bu => [bk, bu]
  | .basemul _ bk => [bk]
  | .fadd _ _ _ | .fsub _ _ _ | .fmul _ _ _ | .finv _ _ | .fcswap _ _ _ | .enc _ _ | .kenc _ => []
  | .linit _ | .lstep | .lfin _ | .ladder _ _ => []

/-- The next event puts the core into reset (70_reset_and_hazards.md R240). -/
abbrev State.resetNext (s : State) : Prop := s.nextEvent = .reset ∨ s.nextEvent = .assertReset

/-- The next event completes the command `i` (60_exceptions.md R217). -/
abbrev State.completesNext (s : State) (i : Instr) : Prop :=
  s.nextEvent = .coreTurn ∧ s.busy = true ∧ decode s.cur = .ok i

/-- The next event is a 32-bit host write of `v` at a window offset. -/
abbrev State.hostWritesNext (s : State) (off : Nat) (v : Word) : Prop :=
  s.nextEvent = .host { addr := coreBase + off, size := .word, op := .write v }

/-- The window offset of word j of buffer n (20_memory.md R54). -/
abbrev wordOffset (n : Buf) (j : Fin 8) : Nat := 0x100 + 0x20 * n.val + 4 * j.val

/-- The window offset of a length register (R53). -/
abbrev lenOffset (n : Buf) : Nat := 0x010 + 4 * n.val

end Sys2Proof.Machine
end

