-- ==== Sys2Proof/Certificates/Slice0/Obligations.lean ====
section
/-! DEFINITION. The statements for the provers. Each docstring says which rule of spec/ it formalises. -/

open Sys2Proof Sys2Proof.Config Sys2Proof.Machine

/-! ## Encoding (30_encoding.md) -/

/-- R84, R85, R88: decoding an encoded well-formed command gives it back, with every operand at every value. -/
def Obligations.DecodeOfEncodeIsTheCommand : Prop :=
  ∀ i : Instr, i.wf = true → decode (encode i) = .ok i

/-- R84, R85, R88: each word has at most one command: a word that decodes is the encoding of the command it decodes to, and that command is well-formed. -/
def Obligations.EncodeOfDecodeIsTheWord : Prop :=
  ∀ (w : Word) (i : Instr), decode w = .ok i → i.wf = true ∧ encode i = w

/-- R81, R82, R85, R86: the decoder, written from the masks of R84, accepts exactly the words whose fields are legal by the operand kinds, reads each operand from its own field, and rejects every other word under the name of R86's list. -/
def Obligations.DecodeAgreesWithFieldCheck : Prop :=
  ∀ w : Word, (∀ i, decode w = .ok i → fieldsOf w = i.fields) ∧ ((∃ i, decode w = .ok i) ↔ (fieldsOf w).wf = true) ∧
    (∀ r, decode w = .error r ↔ (fieldsOf w).illegal = some r)

/-- R84: "So at most one row matches any word, because the OP values are distinct." -/
def Obligations.AtMostOneRowMatches : Prop :=
  ∀ w : Word, (opRows.filter (fun r => r.matches w)).length ≤ 1

/-- 95_test_vectors.md L2.0: the printed word of each command decodes to it. -/
def Obligations.PrintedWordsDecode : Prop :=
  decode 0x00010201 = .ok (.fadd 2 0 1) ∧ decode 0x00010202 = .ok (.fsub 2 0 1) ∧ decode 0x00010203 = .ok (.fmul 2 0 1) ∧
  decode 0x00000104 = .ok (.finv 1 0) ∧ decode 0x00110005 = .ok (.fcswap 0 1 true) ∧ decode 0x00000010 = .ok (.decu 0 0) ∧
  decode 0x00000111 = .ok (.enc 1 0) ∧ decode 0x00000012 = .ok (.clamp 0) ∧ decode 0x00000013 = .ok (.kldr 0) ∧
  decode 0x00000114 = .ok (.kenc 1) ∧ decode 0x00000020 = .ok (.linit 0) ∧ decode 0x00000021 = .ok .lstep ∧
  decode 0x00000122 = .ok (.lfin 1) ∧ decode 0x00000123 = .ok (.ladder 1 0) ∧ decode 0x00010230 = .ok (.x25519 2 0 1) ∧
  decode 0x00000131 = .ok (.basemul 1 0)

/-! ## Field arithmetic (40_field_arithmetic.md) -/

/-- R101: FADD, from any state whose registers are reduced: the sum with at most one subtraction of p; nothing else but STATUS changes. -/
def Obligations.FaddAddsModuloP : Prop :=
  ∀ (fd fa fb : FReg) (s : State), s.reduced →
    decode (packWord 0x01 fd fa fb false) = .ok (.fadd fd fa fb) ∧
    exec (.fadd fd fa fb) s = .next
      { s with
        f := s.f.set fd.val (if s.getF fa + s.getF fb < P then s.getF fa + s.getF fb else s.getF fa + s.getF fb - P) fd.isLt
        busy := false, done := true, err := false, errcode := 0 }

/-- R102: FSUB, from any state whose registers are reduced: the difference, with p added where it is negative; nothing else but STATUS changes. -/
def Obligations.FsubSubtractsModuloP : Prop :=
  ∀ (fd fa fb : FReg) (s : State), s.reduced →
    decode (packWord 0x02 fd fa fb false) = .ok (.fsub fd fa fb) ∧
    exec (.fsub fd fa fb) s = .next
      { s with
        f := s.f.set fd.val (if s.getF fb ≤ s.getF fa then s.getF fa - s.getF fb else s.getF fa + P - s.getF fb) fd.isLt
        busy := false, done := true, err := false, errcode := 0 }

/-- R103: FMUL: the remainder of the exact product, which is below p², so under 2^510, for reduced operands; nothing else but STATUS changes. -/
def Obligations.FmulMultipliesModuloP : Prop :=
  ∀ (fd fa fb : FReg) (s : State),
    decode (packWord 0x03 fd fa fb false) = .ok (.fmul fd fa fb) ∧
    exec (.fmul fd fa fb) s = .next
      { s with
        f := s.f.set fd.val (s.getF fa * s.getF fb % P) fd.isLt
        busy := false, done := true, err := false, errcode := 0 } ∧
    (s.reduced → s.getF fa * s.getF fb < P ^ 2 ∧ P ^ 2 < 2 ^ 510)

/-- R104: FINV: the power of exponent p − 2, for every value, 0 among them, and the inverse of every reduced value but 0; nothing else but STATUS changes. -/
def Obligations.FinvIsFermatPower : Prop :=
  ∀ (fd fa : FReg) (s : State),
    decode (packWord 0x04 fd fa 0 false) = .ok (.finv fd fa) ∧
    exec (.finv fd fa) s = .next
      { s with
        f := s.f.set fd.val (s.getF fa ^ (P - 2) % P) fd.isLt
        busy := false, done := true, err := false, errcode := 0 } ∧
    (s.reduced → s.getF fa ≠ 0 → s.getF fa * (s.getF fa ^ (P - 2) % P) % P = 1)

/-- R105: FCSWAP, from any state whose registers are reduced: an exchange if s = 1, no change of a register if s = 0 (fa = fb allowed); nothing else but STATUS changes. -/
def Obligations.FcswapExchangesOnCondition : Prop :=
  ∀ (fa fb : FReg) (c : Bool) (s : State), s.reduced →
    decode (packWord 0x05 0 fa fb c) = .ok (.fcswap fa fb c) ∧
    exec (.fcswap fa fb c) s = .next
      { s with
        f := if c then (s.f.set fa.val (s.getF fb) fa.isLt).set fb.val (s.getF fa) fb.isLt else s.f
        busy := false, done := true, err := false, errcode := 0 }

/-- 00_scope.md R11: modp is the residue in [0, p) of any integer, the four operations are its images, finv(0) = 0, and finv is an inverse of every nonzero element (p is prime). -/
def Obligations.FieldOperationsFollowModp : Prop :=
  (∀ (v : Int) (r : Nat), modp v = r ↔ r < P ∧ ((r : Int) ≡ v [ZMOD (P : Int)])) ∧
  (∀ a b : Nat, fadd a b = modp ((a : Int) + b) ∧ fsub a b = modp ((a : Int) - b) ∧ fmul a b = modp ((a : Int) * b)) ∧
  (∀ a : Nat, finv a = modp ((a : Int) ^ (P - 2))) ∧ finv 0 = 0 ∧
  (∀ a : Nat, a < P → a ≠ 0 → fmul a (finv a) = 1)

/-- 42_ladder.md R161: the mask form of the conditional swap has the value (b, a) when s = 1 and (a, b) when s = 0, and swaps field elements to field elements. -/
def Obligations.MaskSwapIsSwap : Prop :=
  ∀ (c : Bool) (a b : Nat),
    (a < 2 ^ 256 → b < 2 ^ 256 → cswap c a b = if c then (b, a) else (a, b)) ∧
    (a < P → b < P → (cswap c a b).1 < P ∧ (cswap c a b).2 < P)

/-! ## Codec (41_codec.md) -/

/-- R132: DECU with length 32 writes the decoded coordinate; with any other length it fails with INVALID_LENGTH and nothing but STATUS changes. -/
def Obligations.DecuDecodesOrRejects : Prop :=
  ∀ (fd : FReg) (bn : Buf) (s : State),
    decode (packWord 0x10 fd bn 0 false) = .ok (.decu fd bn) ∧
    (s.getLen bn = 32#6 → exec (.decu fd bn) s = .next
      { s with
        f := s.f.set fd.val (leSum (s.getBuf bn) % 2 ^ 255 % P) fd.isLt
        busy := false, done := true, err := false, errcode := 0 }) ∧
    (s.getLen bn ≠ 32#6 → exec (.decu fd bn) s = .next (s.failedWith 1))

/-- R134: CLAMP with length 32 writes K, bit by bit as R133 says; with any other length it fails with INVALID_LENGTH. Nothing else but STATUS changes. -/
def Obligations.ClampSetsScalarBits : Prop :=
  ∀ (bn : Buf) (s : State),
    decode (packWord 0x12 0 bn 0 false) = .ok (.clamp bn) ∧
    (s.getLen bn = 32#6 → ∃ k : Scalar,
      (∀ i : Fin 32, ∀ b : Fin 8, k.getLsbD (8 * i.val + b.val) =
        if i.val = 0 ∧ b.val < 3 then false
        else if i.val = 31 ∧ b.val = 7 then false
        else if i.val = 31 ∧ b.val = 6 then true
        else (s.getBuf bn)[i].getLsbD b.val) ∧
      exec (.clamp bn) s = .next { s with k := k, busy := false, done := true, err := false, errcode := 0 }) ∧
    (s.getLen bn ≠ 32#6 → exec (.clamp bn) s = .next (s.failedWith 1))

/-- R136, R139: ENC, from any state whose registers are reduced, writes the 32 bytes whose little-endian value is the register, bit 255 clear, and sets the length to 32; nothing else but STATUS changes. -/
def Obligations.EncWritesCanonicalBytes : Prop :=
  ∀ (bn : Buf) (fa : FReg) (s : State), s.reduced →
    decode (packWord 0x11 bn fa 0 false) = .ok (.enc bn fa) ∧
    ∃ v : Bytes32, leSum v = s.getF fa ∧ v[31].getLsbD 7 = false ∧
      exec (.enc bn fa) s = .next
        { s with
          buf := s.buf.set bn.val v bn.isLt
          len := s.len.set bn.val 32#6 bn.isLt
          busy := false, done := true, err := false, errcode := 0 }

/-- R137: KLDR with length 32 loads all 256 bits; with any other length it fails with INVALID_LENGTH. Nothing else but STATUS changes. -/
def Obligations.KldrLoadsAllBits : Prop :=
  ∀ (bn : Buf) (s : State),
    decode (packWord 0x13 0 bn 0 false) = .ok (.kldr bn) ∧
    (s.getLen bn = 32#6 → ∃ k : Scalar, k.toNat = leSum (s.getBuf bn) ∧
      exec (.kldr bn) s = .next { s with k := k, busy := false, done := true, err := false, errcode := 0 }) ∧
    (s.getLen bn ≠ 32#6 → exec (.kldr bn) s = .next (s.failedWith 1))

/-- R138: KENC writes all 256 bits of K as 32 bytes and sets the length to 32; nothing else but STATUS changes. -/
def Obligations.KencWritesAllBits : Prop :=
  ∀ (bn : Buf) (s : State),
    decode (packWord 0x14 bn 0 0 false) = .ok (.kenc bn) ∧
    ∃ v : Bytes32, leSum v = s.k.toNat ∧
      exec (.kenc bn) s = .next
        { s with
          buf := s.buf.set bn.val v bn.isLt
          len := s.len.set bn.val 32#6 bn.isLt
          busy := false, done := true, err := false, errcode := 0 }

/-- 00_scope.md R12: LE is the sum of the bytes times powers of 256, byte i of LE32(x) is x[8i+7:8i], and each undoes the other. -/
def Obligations.LittleEndianRoundTrip : Prop :=
  (∀ v : Bytes32, le v = leSum v ∧ le v < 2 ^ 256 ∧ le32 (le v) = v) ∧
  (∀ x : Nat, (∀ i : Fin 32, (le32 x)[i].toNat = x / 2 ^ (8 * i.val) % 256) ∧ (x < 2 ^ 256 → le (le32 x) = x))

/-- 41_codec.md R131: the masked value is below 2^255; the 19 encodings of p and above decode to 0 to 18, all others to themselves; bit 255 never matters. -/
def Obligations.DecodeUReducesNonCanonical : Prop :=
  ∀ v : Bytes32,
    decodeU v = (if leSum v % 2 ^ 255 < P then leSum v % 2 ^ 255 else leSum v % 2 ^ 255 - P) ∧
    (P ≤ leSum v % 2 ^ 255 → decodeU v < 19) ∧
    decodeU (v.set 31 (v[31] &&& 0x7F#8)) = decodeU v

/-- R135: a clamped value is a multiple of 8 in [2^254, 2^255), clamping its own encoding gives it back, and it is never 0. -/
def Obligations.ClampIsProjection : Prop :=
  ∀ v : Bytes32, 8 ∣ clampValue v ∧ 2 ^ 254 ≤ clampValue v ∧ clampValue v < 2 ^ 255 ∧
    clampValue (le32 (clampValue v)) = clampValue v ∧ clampValue v ≠ 0

/-- The corner cases of R136, R138 and R135 as sequences of commands: DECU then ENC gives a canonical encoding back and turns any other into that of its reduced value; KLDR then KENC gives the bytes back; CLAMP on the bytes that CLAMP, KENC wrote leaves K as it was. -/
def Obligations.CodecCommandsRoundTrip : Prop :=
  ∀ (f : FReg) (bn bo : Buf) (s : State), s.getLen bn = 32#6 →
    (∃ t : State, execAll [.decu f bn, .enc bo f] s = .next t ∧ t.getLen bo = 32#6 ∧
      leSum (t.getBuf bo) = leSum (s.getBuf bn) % 2 ^ 255 % P ∧ (leSum (s.getBuf bn) < P → t.getBuf bo = s.getBuf bn)) ∧
    (∃ t : State, execAll [.kldr bn, .kenc bo] s = .next t ∧ t.getLen bo = 32#6 ∧ t.getBuf bo = s.getBuf bn) ∧
    (∃ t u : State, execAll [.clamp bn, .kenc bo] s = .next t ∧ exec (.clamp bo) t = .next u ∧ u.k = t.k ∧ u.err = false)

/-! ## Ladder (42_ladder.md) -/

/-- R162: LINIT from any state, for any register, a ladder register too: u is read before any write; every other register and all other state but the ladder fields and STATUS keep their values. -/
def Obligations.LinitOpensLadder : Prop :=
  ∀ (fa : FReg) (s : State),
    decode (packWord 0x20 0 fa 0 false) = .ok (.linit fa) ∧
    ∃ t : State, exec (.linit fa) s = .next t ∧
      t = { s with f := t.f, swap := false, round := 255#9, lact := true, busy := false, done := true, err := false, errcode := 0 } ∧
      (∀ r : FReg, t.getF r =
        if r = 11 then s.getF fa else if r = 12 then 1 else if r = 13 then 0 else if r = 14 then s.getF fa else if r = 15 then 1
        else s.getF r) ∧
      t.lstateWord = 0x000200FF#32

/-- R163: LSTEP with a ladder open and rounds to run, from any state whose registers are reduced: one round, as algebra modulo p on the pairs swapped by SWAP xor K[ROUND − 1]; X1 and every register below it keep their values. Else SEQUENCE, and nothing but STATUS changes. -/
def Obligations.LstepRunsOneRound : Prop :=
  ∀ s : State,
    decode (packWord 0x21 0 0 0 false) = .ok .lstep ∧
    ((s.lact = false ∨ s.round = 0#9) → exec .lstep s = .next (s.failedWith 3)) ∧
    (s.reduced → s.lact = true → s.round ≠ 0#9 →
      let bit := s.k.getLsbD (s.round.toNat - 1)
      let c := s.swap != bit
      let x2 : ZMod P := if c then (s.getF 14 : ZMod P) else (s.getF 12 : ZMod P)
      let z2 : ZMod P := if c then (s.getF 15 : ZMod P) else (s.getF 13 : ZMod P)
      let x3 : ZMod P := if c then (s.getF 12 : ZMod P) else (s.getF 14 : ZMod P)
      let z3 : ZMod P := if c then (s.getF 13 : ZMod P) else (s.getF 15 : ZMod P)
      let e : ZMod P := (x2 + z2) ^ 2 - (x2 - z2) ^ 2
      ∃ t : State, exec .lstep s = .next t ∧
        t = { s with
              f := t.f, swap := bit, round := BitVec.ofNat 9 (s.round.toNat - 1)
              busy := false, done := true, err := false, errcode := 0 } ∧
        t.reduced ∧ (∀ r : FReg, r.val ≤ 11 → t.getF r = s.getF r) ∧
        (t.getF 12 : ZMod P) = (x2 + z2) ^ 2 * (x2 - z2) ^ 2 ∧
        (t.getF 13 : ZMod P) = e * ((x2 + z2) ^ 2 + 121665 * e) ∧
        (t.getF 14 : ZMod P) = ((x3 - z3) * (x2 + z2) + (x3 + z3) * (x2 - z2)) ^ 2 ∧
        (t.getF 15 : ZMod P) = (s.getF 11 : ZMod P) * ((x3 - z3) * (x2 + z2) - (x3 + z3) * (x2 - z2)) ^ 2)

/-- R164: LFIN with a ladder open and no round left, from any state whose registers are reduced: the final swap by SWAP, LACT cleared, and F[fd] written last with x2 / z2. Else SEQUENCE, and nothing but STATUS changes. -/
def Obligations.LfinFinishesLadder : Prop :=
  ∀ (fd : FReg) (s : State),
    decode (packWord 0x22 fd 0 0 false) = .ok (.lfin fd) ∧
    ((s.lact = false ∨ s.round ≠ 0#9) → exec (.lfin fd) s = .next (s.failedWith 3)) ∧
    (s.reduced → s.lact = true → s.round = 0#9 →
      ∃ t : State, exec (.lfin fd) s = .next t ∧
        t = { s with f := t.f, lact := false, busy := false, done := true, err := false, errcode := 0 } ∧
        (∀ r : FReg, t.getF r =
          if r = fd then (if s.swap then s.getF 14 else s.getF 12) * (if s.swap then s.getF 15 else s.getF 13) ^ (P - 2) % P
          else if s.swap = false then s.getF r
          else if r = 12 then s.getF 14 else if r = 13 then s.getF 15 else if r = 14 then s.getF 12 else if r = 15 then s.getF 13
          else s.getF r))

/-- R165: LADDER from any state whose registers are reduced: F[fd] = LadderFn(K, F[fa]); X1 to Z3 hold u and the final, post-swap coordinates unless fd names them; SWAP = K[0], ROUND = 0, LACT = 0; nothing else but STATUS changes. -/
def Obligations.LadderComputesLadderFn : Prop :=
  ∀ (fd fa : FReg) (s : State), s.reduced →
    decode (packWord 0x23 fd fa 0 false) = .ok (.ladder fd fa) ∧
    ∃ t : State, exec (.ladder fd fa) s = .next t ∧
      t = { s with
            f := t.f, swap := s.k.getLsbD 0, round := 0#9, lact := false
            busy := false, done := true, err := false, errcode := 0 } ∧
      t.getF fd = ladderFn s.k (s.getF fa) ∧
      (let r := ladderRounds s.k (s.getF fa) 255 { x2 := 1, z2 := 0, x3 := s.getF fa, z3 := 1 } false
       ∀ reg : FReg, reg ≠ fd → t.getF reg =
         if reg = 11 then s.getF fa
         else if reg = 12 then (if r.2 then r.1.x3 else r.1.x2) else if reg = 13 then (if r.2 then r.1.z3 else r.1.z2)
         else if reg = 14 then (if r.2 then r.1.x2 else r.1.x3) else if reg = 15 then (if r.2 then r.1.z2 else r.1.z3)
         else s.getF reg)

/-- R165, R166: the one-command ladder is the stepwise sequence of commands: LINIT, 255 times LSTEP, LFIN, from any state. -/
def Obligations.LadderIsStepwiseSequence : Prop :=
  ∀ (fd fa : FReg) (s : State), execAll (openLadder fa 255 ++ [.lfin fd]) s = exec (.ladder fd fa) s

/-- R166: after LINIT and n LSTEPs, n up to 255, the ladder has 255 − n rounds to run; LFIN refuses before 255 LSTEPs, and LSTEP refuses a 256th round. -/
def Obligations.LadderNeedsAll255Rounds : Prop :=
  ∀ (fa fd : FReg) (n : Nat) (s : State), n ≤ 255 →
    ∃ t : State, execAll (openLadder fa n) s = .next t ∧ t.round.toNat = 255 - n ∧ t.lact = true ∧
      (n < 255 → exec (.lfin fd) t = .next (t.failedWith 3)) ∧
      (n = 255 → exec .lstep t = .next (t.failedWith 3))

/-- R160, 10_state.md R23: K[255] is read by no ladder: two scalars that agree on bits 254 to 0 give the same value. -/
def Obligations.LadderIgnoresScalarBit255 : Prop :=
  ∀ (k k' : Scalar) (u : Nat), (∀ t, t < 255 → k.getLsbD t = k'.getLsbD t) → ladderFn k u = ladderFn k' u

/-- R168, R165: u = 0 gives 0 for every scalar, a scalar with K[254:0] = 0 gives 0 for every u, and the scalar 1 gives u. -/
def Obligations.LadderDegenerateInputs : Prop :=
  (∀ k : Scalar, ladderFn k 0 = 0) ∧
  (∀ (k : Scalar) (u : Nat), u < P → (∀ t, t < 255 → k.getLsbD t = false) → ladderFn k u = 0) ∧
  (∀ u : Nat, u < P → ladderFn 1#256 u = u)

/-- 95_test_vectors.md L1.3: the ladder with scalar 4 equals two ladders with scalar 2, for every field element. -/
def Obligations.LadderDoublingConsistency : Prop :=
  ∀ x : Nat, x < P → ladderFn 4#256 x = ladderFn 2#256 (ladderFn 2#256 x)

/-! ## X25519 function (43_x25519.md) -/

/-- R191: X25519 with both lengths 32 writes the encoding of the ladder on the clamped scalar and the decoded coordinate, and sets the output's length; else INVALID_LENGTH. Nothing else but STATUS changes; the output may be an input. -/
def Obligations.X25519WritesItsFunction : Prop :=
  ∀ (bo bk bu : Buf) (s : State),
    decode (packWord 0x30 bo bk bu false) = .ok (.x25519 bo bk bu) ∧
    (s.getLen bk = 32#6 → s.getLen bu = 32#6 → ∃ r : Bytes32,
      leSum r = ladderFn (BitVec.ofNat 256 (clampValue (s.getBuf bk))) (leSum (s.getBuf bu) % 2 ^ 255 % P) ∧
      exec (.x25519 bo bk bu) s = .next
        { s with
          buf := s.buf.set bo.val r bo.isLt
          len := s.len.set bo.val 32#6 bo.isLt
          busy := false, done := true, err := false, errcode := 0 }) ∧
    ((s.getLen bk ≠ 32#6 ∨ s.getLen bu ≠ 32#6) → exec (.x25519 bo bk bu) s = .next (s.failedWith 1))

/-- R192: BASEMUL with length 32 writes the encoding of the ladder on the clamped scalar and u = 9; else INVALID_LENGTH. Nothing else but STATUS changes. -/
def Obligations.BasemulMultipliesBasePoint : Prop :=
  ∀ (bo bk : Buf) (s : State),
    decode (packWord 0x31 bo bk 0 false) = .ok (.basemul bo bk) ∧
    (s.getLen bk = 32#6 → ∃ r : Bytes32,
      leSum r = ladderFn (BitVec.ofNat 256 (clampValue (s.getBuf bk))) 9 ∧
      exec (.basemul bo bk) s = .next
        { s with
          buf := s.buf.set bo.val r bo.isLt
          len := s.len.set bo.val 32#6 bo.isLt
          busy := false, done := true, err := false, errcode := 0 }) ∧
    (s.getLen bk ≠ 32#6 → exec (.basemul bo bk) s = .next (s.failedWith 1))

/-- R194: the output of X25519 and of BASEMUL depends on the input buffers and lengths only, whatever else two states hold. -/
def Obligations.X25519DependsOnInputsOnly : Prop :=
  ∀ (bo bk bu : Buf) (s s' t t' : State), s.getBuf bk = s'.getBuf bk → s.getLen bk = s'.getLen bk →
    (exec (.basemul bo bk) s = .next t → exec (.basemul bo bk) s' = .next t' →
      t.errcode = t'.errcode ∧ (t.errcode = 0 → t.getBuf bo = t'.getBuf bo)) ∧
    (s.getBuf bu = s'.getBuf bu → s.getLen bu = s'.getLen bu →
      exec (.x25519 bo bk bu) s = .next t → exec (.x25519 bo bk bu) s' = .next t' →
      t.errcode = t'.errcode ∧ (t.errcode = 0 → t.getBuf bo = t'.getBuf bo))

/-- R191, R168, R193: the inputs that decode to 0, 1 or p − 1 (0, 1, p − 1, p, p + 1 and each of them with bit 255 set) give 32 zero bytes for every scalar, and no error. -/
def Obligations.LowOrderInputsGiveZeroBytes : Prop :=
  ∀ (bo bk bu : Buf) (s : State), s.getLen bk = 32#6 → s.getLen bu = 32#6 →
    leSum (s.getBuf bu) % 2 ^ 255 % P ∈ [0, 1, P - 1] →
    exec (.x25519 bo bk bu) s = .next
      { s with
        buf := s.buf.set bo.val (Vector.replicate 32 0) bo.isLt
        len := s.len.set bo.val 32#6 bo.isLt
        busy := false, done := true, err := false, errcode := 0 }

/-- R195: BASEMUL writes what X25519 writes when B[bu] = LE32(9), and the stepwise sequence CLAMP, DECU, LINIT, 255 times LSTEP, LFIN, ENC writes the same bytes into B[bo] as X25519. -/
def Obligations.StepwiseSequenceEqualsX25519 : Prop :=
  ∀ (bo bk bu : Buf) (f g : FReg) (s : State), s.getLen bk = 32#6 → s.getLen bu = 32#6 →
    (∃ t t' : State, exec (.x25519 bo bk bu) s = .next t ∧
      execAll ([.clamp bk, .decu f bu] ++ openLadder f 255 ++ [.lfin g, .enc bo g]) s = .next t' ∧
      t'.getBuf bo = t.getBuf bo ∧ t'.getLen bo = t.getLen bo) ∧
    (leSum (s.getBuf bu) = 9 → exec (.basemul bo bk) s = exec (.x25519 bo bk bu) s)

/-- R139: what ENC (from reduced registers), X25519 or BASEMUL writes encodes a value below p, with bit 255 = 0. -/
def Obligations.OutputEncodingsAreCanonical : Prop :=
  ∀ (i : Instr) (bo bk bu : Buf) (fa : FReg) (s t : State), s.reduced →
    (i = .enc bo fa ∨ i = .x25519 bo bk bu ∨ i = .basemul bo bk) → exec i s = .next t → t.err = false →
    leSum (t.getBuf bo) < P ∧ (t.getBuf bo)[31].getLsbD 7 = false

/-! ## Errors and completion (60_exceptions.md) -/

/-- R212, R217: every completion answers a next state with BUSY = 0 and DONE = 1. Either it succeeds, and only the data state of F, K, the ladder fields, the buffers and LEN may differ, or it fails with code 1, 2 or 3 and nothing but STATUS changes. -/
def Obligations.CompletionSucceedsOrChangesOnlyStatus : Prop :=
  ∀ s : State, ∃ t : State, complete s = .next t ∧
    ((t = { s with
            f := t.f, k := t.k, swap := t.swap, round := t.round, lact := t.lact, buf := t.buf, len := t.len
            busy := false, done := true, err := false, errcode := 0 }) ∨
     (t = s.failedWith t.errcode ∧ (t.errcode = 1 ∨ t.errcode = 2 ∨ t.errcode = 3)))

/-- R213, R215, R216: a decoded command fails with INVALID_LENGTH exactly when an input buffer's length is not 32, with SEQUENCE exactly in the cases of LSTEP and LFIN, and never with ILLEGAL_COMMAND; it fails in no other case. -/
def Obligations.ErrorCodesHaveTheirCauses : Prop :=
  ∀ (i : Instr) (s : State), ∃ t : State, exec i s = .next t ∧
    (t.errcode = 1 ↔ ∃ n ∈ inputBuffers i, s.getLen n ≠ 32#6) ∧
    (t.errcode = 3 ↔ (i = .lstep ∧ (s.lact = false ∨ s.round = 0#9)) ∨ (∃ fd, i = .lfin fd ∧ (s.lact = false ∨ s.round ≠ 0#9))) ∧
    t.errcode ≠ 2 ∧ (t.err = true ↔ t.errcode ≠ 0)

/-- R214: a word that does not decode completes with ILLEGAL_COMMAND, and nothing but STATUS changes. -/
def Obligations.IllegalWordFails : Prop :=
  ∀ (s : State) (r : Illegal), decode s.cur = .error r → complete s = .next (s.failedWith 2)

/-- R223: after any completion, failed or not, the core is idle and accepts the next CMD write at once. -/
def Obligations.NextCommandAcceptedAfterCompletion : Prop :=
  ∀ (s : State) (v : Word), ∃ t : State, complete s = .next t ∧ t.busy = false ∧
    t.busWrite 0x000 .word v = { t with cur := v, cmdlast := v, busy := true, done := false, err := false, errcode := 0 }

/-- R220: irq is CTRL.IE and STATUS.DONE; after a completion, successful or failed, it is IE; a write of 1 to STATUS bit 1, an acceptance and a write of IE = 0 clear it; lost commands and access errors do not raise it, and no host access sets DONE. When irq goes from 0 to 1 is IrqRisesAtCompletionOrEnable. -/
def Obligations.IrqIsEnableAndDone : Prop :=
  ∀ (s : State) (v : Word),
    (s.irq = true ↔ s.ie = true ∧ s.done = true) ∧
    (∃ t : State, complete s = .next t ∧ t.irq = s.ie) ∧
    (v.getLsbD 1 = true → (s.busWrite 0x004 .word v).irq = false) ∧
    (s.busy = false → (s.busWrite 0x000 .word v).irq = false) ∧
    (v.getLsbD 0 = false → (s.busWrite 0x008 .word v).irq = false) ∧
    (s.busy = true → (s.busWrite 0x000 .word v).irq = s.irq) ∧
    s.raiseAccErr.irq = s.irq ∧
    (∀ a : Access, s.done = false → (s.hostAccess a).done = false ∧ (s.hostAccess a).irq = false)

/-! ## Steps, reset and time -/

/-- 60_exceptions.md R217, 20_memory.md R60: with BUSY = 1 and the core's turn next, a step is the decoded command at the state with that event taken. Before an instruction runs, nothing else happens in the step. -/
def Obligations.StepRunsDecodedInstruction : Prop :=
  ∀ (s : State) (i : Instr), s.nextEvent = .coreTurn → s.busy = true → decode s.cur = .ok i →
    step s = exec i { s with sched := s.sched.tail }

/-- R210, R222: no step stops: from every state a step answers a next state, and no fault or refusal exists to be reached. -/
def Obligations.StepNeverStops : Prop := ∀ s : State, ∃ t : State, step s = .next t

/-- 10_state.md R22, R24, R28, R31, 70_reset_and_hazards.md R240: the invariant, kept by every step of every agent: registers reduced, STATUS and the ladder fields legal, CMDLAST = CUR in flight, everything at its reset value while reset is held. -/
def Obligations.StepKeepsInvariant : Prop := ∀ s t : State, s.Inv → step s = .next t → t.Inv

/-- The invariant holds right after reset; no command is in flight, and the reset input is released. -/
def Obligations.ResetSatisfiesInvariant : Prop :=
  State.reset.Inv ∧ State.reset.busy = false ∧ State.reset.inReset = false

/-- 10_state.md R35: the reset value of every state element, and the words the host reads; a command with an input buffer then fails with INVALID_LENGTH. -/
def Obligations.ResetValues : Prop :=
  (∀ r : FReg, State.reset.getF r = 0) ∧ State.reset.k = 0 ∧ State.reset.swap = false ∧ State.reset.round = 0 ∧
  State.reset.lact = false ∧ (∀ (n : Buf) (i : Fin 32), (State.reset.getBuf n)[i] = 0) ∧ (∀ n : Buf, State.reset.getLen n = 0) ∧
  State.reset.cmdlast = 0 ∧ State.reset.cur = 0 ∧ State.reset.statusWord = 0 ∧ State.reset.ctrlWord = 0 ∧
  State.reset.lstateWord = 0 ∧ State.reset.irq = false ∧
  (∀ i : Instr, inputBuffers i ≠ [] → exec i State.reset = .next (State.reset.failedWith 1))

/-- 70_reset_and_hazards.md R240: reset sets every state element to its reset value from any state, also with a command in flight, which is abandoned; while reset is asserted host accesses have no effect and a read in the window returns 0. What was read before and what happens later are the outside world's (log entries 1, 3 and 4). -/
def Obligations.ResetAbandonsCommand : Prop :=
  ∀ s : State,
    (s.nextEvent = .reset → step s = .next { State.reset with sched := s.sched.tail, rdata := s.rdata }) ∧
    (s.nextEvent = .assertReset → step s = .next { State.reset with sched := s.sched.tail, rdata := s.rdata, inReset := true }) ∧
    (∀ a : Access, s.nextEvent = .host a → s.inReset = true → ∃ t : State, step s = .next t ∧
      t = { s with sched := s.sched.tail, rdata := t.rdata } ∧
      (a.op = .read → inWindow a.addr = true → t.rdata = some 0) ∧
      (a.op ≠ .read ∨ inWindow a.addr = false → t.rdata = s.rdata))

/-- R249, 60_exceptions.md R217: a command in flight completes after finitely many host steps, if no reset comes: at the latest one step after the last pending event. -/
def Obligations.AcceptedCommandCompletes : Prop :=
  ∀ s : State, s.busy = true → (∀ e ∈ s.sched, e ≠ .reset ∧ e ≠ .assertReset) →
    ∃ (n : Nat) (t : State), n ≤ s.sched.length + 1 ∧ Host.Core.run core n s = .next t ∧ t.busy = false ∧ t.done = true

/-- R247: "lengths, command words and the ladder sequence are not secret", and nothing else may show in the time of a completion: two states that agree on the word in flight, LEN, ROUND and LACT complete with the same error code and so in the same, positive time, whatever F, K, SWAP and the buffers hold. -/
def Obligations.OutcomeAndLatencyIgnoreSecrets : Prop :=
  ∀ s s' : State, s.cur = s'.cur → s.len = s'.len → s.round = s'.round → s.lact = s'.lact →
    ∃ t t' : State, complete s = .next t ∧ complete s' = .next t' ∧
      t.err = t'.err ∧ t.errcode = t'.errcode ∧ s.latency = s'.latency ∧ 0 < s.latency

/-! ## Bus window (20_memory.md) and the host -/

/-- R51: an access inside the window is the access at its offset, one outside changes nothing in the core. That an access of several bytes is inside or outside by its own address alone, and that one outside leaves the word last read, is the model's reading (log entry 5). -/
def Obligations.HostAccessReachesWindowOnly : Prop :=
  ∀ (s : State) (a : Access), s.nextEvent = .host a → s.inReset = false →
    (∀ off, off < 0x200 → a.addr = coreBase + off →
      (a.op = .read → step s = .next (s.popEvent.busRead off a.size)) ∧
      (∀ v, a.op = .write v → step s = .next (s.popEvent.busWrite off a.size v))) ∧
    ((a.addr < coreBase ∨ coreBase + 0x200 ≤ a.addr) → step s = .next { s with sched := s.sched.tail })

/-- R55: what a legal read returns at every offset, and that nothing but ACCERR of a blocked read changes. -/
def Obligations.BusReadValues : Prop :=
  ∀ s : State,
    s.busRead 0x000 .word = { s with rdata := some s.cmdlast } ∧
    (∃ w : Word, s.busRead 0x004 .word = { s with rdata := some w } ∧
      w.toNat = s.busy.toNat + 2 * s.done.toNat + 4 * s.err.toNat + 16 * s.errcode.toNat + 256 * s.cmdlost.toNat + 512 * s.accerr.toNat) ∧
    (∃ w : Word, s.busRead 0x008 .word = { s with rdata := some w } ∧ w.toNat = s.ie.toNat) ∧
    (∃ w : Word, s.busRead 0x00C .word = { s with rdata := some w } ∧
      w.toNat = s.round.toNat + 2 ^ 16 * s.swap.toNat + 2 ^ 17 * s.lact.toNat) ∧
    (∀ n : Buf, ∃ w : Word, w.toNat = (s.getLen n).toNat ∧ s.busRead (lenOffset n) .word =
      if s.busy then { s with accerr := true, rdata := some 0 } else { s with rdata := some w }) ∧
    (∀ (n : Buf) (j : Fin 8), ∃ w : Word,
      w.toNat = ∑ i : Fin 4, (s.getBuf n)[laneIndex j i].toNat * 2 ^ (8 * i.val) ∧ s.busRead (wordOffset n j) .word =
        if s.busy then { s with accerr := true, rdata := some 0 } else { s with rdata := some w })

/-- R56: what a legal write does at every offset. -/
def Obligations.BusWriteEffects : Prop :=
  ∀ (s : State) (v : Word),
    s.busWrite 0x000 .word v =
      (if s.busy then { s with cmdlost := true }
       else { s with cur := v, cmdlast := v, busy := true, done := false, err := false, errcode := 0 }) ∧
    s.busWrite 0x004 .word v =
      { s with
        done := if v.getLsbD 1 then false else s.done
        cmdlost := if v.getLsbD 8 then false else s.cmdlost
        accerr := if v.getLsbD 9 then false else s.accerr } ∧
    s.busWrite 0x008 .word v = { s with ie := v.getLsbD 0 } ∧
    s.busWrite 0x00C .word v = s ∧
    (∀ n : Buf, s.busWrite (lenOffset n) .word v =
      if s.busy then { s with accerr := true } else { s with len := s.len.set n.val (BitVec.ofNat 6 v.toNat) n.isLt }) ∧
    (∀ (n : Buf) (j : Fin 8), ∃ b : Bytes32,
      (∀ i : Fin 32, b[i] = if i.val / 4 = j.val then BitVec.ofNat 8 (v.toNat / 2 ^ (8 * (i.val % 4))) else (s.getBuf n)[i]) ∧
      s.busWrite (wordOffset n j) .word v =
        if s.busy then { s with accerr := true } else { s with buf := s.buf.set n.val b n.isLt })

/-- R52, R57: an illegal access (narrow, misaligned, or at a reserved offset) changes nothing but ACCERR; a read returns 0. It raises no interrupt and aborts no command. -/
def Obligations.IllegalAccessOnlySetsAccerr : Prop :=
  ∀ (s : State) (off : Nat) (size : AccessSize) (v : Word), off < 0x200 →
    (size ≠ .word ∨ off % 4 ≠ 0 ∨ (0x020 ≤ off ∧ off < 0x100) ∨ 0x180 ≤ off) →
    s.busRead off size = { s with accerr := true, rdata := some 0 } ∧ s.busWrite off size v = { s with accerr := true }

/-- R54: a buffer word reads as bits 32j+31:32j of the buffer's little-endian value; a write is read back, changes no other word and no length; and writing the eight words of x makes the buffer LE32(x). -/
def Obligations.BufferWordsAreLittleEndianLanes : Prop :=
  ∀ (s : State) (n : Buf), s.busy = false →
    (∀ (j : Fin 8) (v : Word),
      (s.bufWord n j).toNat = leSum (s.getBuf n) / 2 ^ (32 * j.val) % 2 ^ 32 ∧
      (s.busRead (wordOffset n j) .word).rdata = some (s.bufWord n j) ∧
      ((s.busWrite (wordOffset n j) .word v).busRead (wordOffset n j) .word).rdata = some v ∧
      (∀ (n' : Buf) (j' : Fin 8), (n', j') ≠ (n, j) → (s.busWrite (wordOffset n j) .word v).bufWord n' j' = s.bufWord n' j') ∧
      (s.busWrite (wordOffset n j) .word v).len = s.len) ∧
    (∀ x : Nat, x < 2 ^ 256 →
      ((List.finRange 8).foldl (fun t j => t.busWrite (wordOffset n j) .word (BitVec.ofNat 32 (x / 2 ^ (32 * j.val)))) s).getBuf n = le32 x)

/-- 60_exceptions.md R218, R219: a step that takes a CMD write accepts the word, whatever it is, while idle, and loses it while a command is in flight. -/
def Obligations.CmdWriteAcceptedOrLost : Prop :=
  ∀ (s : State) (v : Word), s.hostWritesNext 0x000 v → s.inReset = false →
    (s.busy = false → step s = .next
      { s with cur := v, cmdlast := v, busy := true, done := false, err := false, errcode := 0, sched := s.sched.tail }) ∧
    (s.busy = true → step s = .next { s with cmdlost := true, sched := s.sched.tail })

/-- 10_state.md R31, 20_memory.md R58: no host access between acceptance and completion changes what the command does: completing after it and completing before it differ in IE, CMDLOST, ACCERR and the word read, nowhere else. -/
def Obligations.InFlightCommandUnaffectedByHost : Prop :=
  ∀ (s : State) (a : Access), s.busy = true → ∃ t t' : State, complete s = .next t ∧ complete (s.hostAccess a) = .next t' ∧
    t' = { t with ie := t'.ie, cmdlost := t'.cmdlost, accerr := t'.accerr, rdata := t'.rdata } ∧
    (s.hostAccess a).busy = true

/-- 10_state.md R20, R23, R24, R25, R26, 20_memory.md R58: apart from reset, a step changes K only at the completion of CLAMP or KLDR, a field register only at that of the ten commands of R20, the ladder fields only at that of a ladder command, and a buffer or a length only at that of ENC, KENC, X25519 or BASEMUL or by a 32-bit host write to a word of a buffer, or to a length, while BUSY = 0 and reset is released. -/
def Obligations.DataStateHasNamedWriters : Prop :=
  ∀ s t : State, step s = .next t → ¬ s.resetNext →
    (t.k ≠ s.k → ∃ i, s.completesNext i ∧ i.fields.op ∈ [0x12, 0x13]) ∧
    (t.f ≠ s.f → ∃ i, s.completesNext i ∧ i.fields.op ∈ [0x01, 0x02, 0x03, 0x04, 0x05, 0x10, 0x20, 0x21, 0x22, 0x23]) ∧
    ((t.swap, t.round, t.lact) ≠ (s.swap, s.round, s.lact) → ∃ i, s.completesNext i ∧ i.fields.op ∈ [0x20, 0x21, 0x22, 0x23]) ∧
    (t.buf ≠ s.buf → (s.busy = false ∧ s.inReset = false ∧ ∃ n j v, s.hostWritesNext (wordOffset n j) v) ∨
      ∃ i, s.completesNext i ∧ i.fields.op ∈ [0x11, 0x14, 0x30, 0x31]) ∧
    (t.len ≠ s.len → (s.busy = false ∧ s.inReset = false ∧ ∃ n v, s.hostWritesNext (lenOffset n) v) ∨
      ∃ i, s.completesNext i ∧ i.fields.op ∈ [0x11, 0x14, 0x30, 0x31])

/-- 10_state.md R28, 60_exceptions.md R219: CMDLOST and ACCERR are sticky: apart from reset, a step clears one only by a host write of 1 to its bit of STATUS. -/
def Obligations.StickyBitsStayUntilCleared : Prop :=
  ∀ s t : State, step s = .next t → ¬ s.resetNext →
    (s.cmdlost = true → t.cmdlost = false → ∃ v : Word, v.getLsbD 8 = true ∧ s.hostWritesNext 0x004 v) ∧
    (s.accerr = true → t.accerr = false → ∃ v : Word, v.getLsbD 9 = true ∧ s.hostWritesNext 0x004 v)

/-- 60_exceptions.md R220: irq, if it is 0, is 1 after a step exactly when the step is the completion of a command, successful or failed, with IE = 1, or a 32-bit host write to CTRL with bit 0 set while DONE = 1 and reset is released. -/
def Obligations.IrqRisesAtCompletionOrEnable : Prop :=
  ∀ s t : State, step s = .next t → s.irq = false →
    (t.irq = true ↔ (s.nextEvent = .coreTurn ∧ s.busy = true ∧ s.ie = true) ∨
      (s.done = true ∧ s.inReset = false ∧ ∃ v : Word, v.getLsbD 0 = true ∧ s.hostWritesNext 0x008 v))
end

