-- ==== Sys2Proof/Laws/Field.lean ====
section
/-! SUPPORT. The field operations as arithmetic on Nat and in ZMod p; what `modp` can answer, said once. -/

namespace Sys2Proof.Machine

open Sys2Proof.Config

theorem P_pos : 0 < P := by decide +kernel

theorem P_lt_two_pow : P < 2 ^ 255 := by decide +kernel

theorem modp_natCast (n : Nat) : modp (n : Int) = n % P := by
  rw [modp, ← Int.natCast_mod, Int.toNat_natCast]

theorem modp_cast (v : Int) : ((modp v : Nat) : Int) = v % (P : Int) :=
  Int.toNat_of_nonneg (Int.emod_nonneg v (by have := P_pos; omega))

theorem modp_lt (v : Int) : modp v < P := by
  have h := modp_cast v
  have hlt := Int.emod_lt_of_pos v (b := (P : Int)) (by have := P_pos; omega)
  omega

/-- `modp v` is congruent to `v`. -/
theorem modp_zmod (v : Int) : ((modp v : Nat) : ZMod P) = (v : ZMod P) := by
  have h := congrArg (Int.cast : Int → ZMod P) (modp_cast v)
  rw [ZMod.intCast_mod] at h
  exact_mod_cast h

theorem fadd_lt (a b : Nat) : fadd a b < P := modp_lt _
theorem fsub_lt (a b : Nat) : fsub a b < P := modp_lt _
theorem fmul_lt (a b : Nat) : fmul a b < P := modp_lt _

theorem fadd_eq_mod (a b : Nat) : fadd a b = (a + b) % P := by
  rw [fadd, ← modp_natCast]; push_cast; rfl

theorem fmul_eq_mod (a b : Nat) : fmul a b = a * b % P := by
  rw [fmul, ← modp_natCast]; push_cast; rfl

theorem fadd_zmod (a b : Nat) : ((fadd a b : Nat) : ZMod P) = (a : ZMod P) + (b : ZMod P) := by
  rw [fadd, modp_zmod]; push_cast; rfl

theorem fsub_zmod (a b : Nat) : ((fsub a b : Nat) : ZMod P) = (a : ZMod P) - (b : ZMod P) := by
  rw [fsub, modp_zmod]; push_cast; rfl

theorem fmul_zmod (a b : Nat) : ((fmul a b : Nat) : ZMod P) = (a : ZMod P) * (b : ZMod P) := by
  rw [fmul, modp_zmod]; push_cast; rfl

/-- Reduced values are equal when they are congruent. -/
theorem eq_of_zmod_eq {a b : Nat} (ha : a < P) (hb : b < P) (h : (a : ZMod P) = (b : ZMod P)) : a = b :=
  Nat.ModEq.eq_of_lt_of_lt ((ZMod.natCast_eq_natCast_iff a b P).mp h) ha hb

theorem powp_lt (n a e : Nat) : powp n a e < P := by
  induction n generalizing a e with
  | zero => exact (by decide +kernel : 1 < P)
  | succ n ih => rw [powp]; split <;> [exact fmul_lt _ _; exact ih _ _]

theorem finv_lt (a : Nat) : finv a < P := powp_lt _ _ _

end Sys2Proof.Machine
end

