-- ==== Sys2Proof/Laws/State.lean ====
section
/-! SUPPORT. One lemma per field per update of State, true by rfl, so that no later proof unfolds a record update. -/

namespace Sys2Proof.Machine

variable (s : State)

@[simp] theorem State.setF_f (r : FReg) (v : Nat) : (s.setF r v).f = s.f.set r.val v r.isLt := rfl
@[simp] theorem State.setF_k (r : FReg) (v : Nat) : (s.setF r v).k = s.k := rfl
@[simp] theorem State.setF_swap (r : FReg) (v : Nat) : (s.setF r v).swap = s.swap := rfl
@[simp] theorem State.setF_round (r : FReg) (v : Nat) : (s.setF r v).round = s.round := rfl
@[simp] theorem State.setF_lact (r : FReg) (v : Nat) : (s.setF r v).lact = s.lact := rfl
@[simp] theorem State.setF_buf (r : FReg) (v : Nat) : (s.setF r v).buf = s.buf := rfl
@[simp] theorem State.setF_len (r : FReg) (v : Nat) : (s.setF r v).len = s.len := rfl
@[simp] theorem State.setF_cmdlast (r : FReg) (v : Nat) : (s.setF r v).cmdlast = s.cmdlast := rfl
@[simp] theorem State.setF_cur (r : FReg) (v : Nat) : (s.setF r v).cur = s.cur := rfl
@[simp] theorem State.setF_busy (r : FReg) (v : Nat) : (s.setF r v).busy = s.busy := rfl
@[simp] theorem State.setF_done (r : FReg) (v : Nat) : (s.setF r v).done = s.done := rfl
@[simp] theorem State.setF_err (r : FReg) (v : Nat) : (s.setF r v).err = s.err := rfl
@[simp] theorem State.setF_errcode (r : FReg) (v : Nat) : (s.setF r v).errcode = s.errcode := rfl
@[simp] theorem State.setF_cmdlost (r : FReg) (v : Nat) : (s.setF r v).cmdlost = s.cmdlost := rfl
@[simp] theorem State.setF_accerr (r : FReg) (v : Nat) : (s.setF r v).accerr = s.accerr := rfl
@[simp] theorem State.setF_ie (r : FReg) (v : Nat) : (s.setF r v).ie = s.ie := rfl
@[simp] theorem State.setF_inReset (r : FReg) (v : Nat) : (s.setF r v).inReset = s.inReset := rfl
@[simp] theorem State.setF_sched (r : FReg) (v : Nat) : (s.setF r v).sched = s.sched := rfl
@[simp] theorem State.setF_rdata (r : FReg) (v : Nat) : (s.setF r v).rdata = s.rdata := rfl

@[simp] theorem State.setK_f (v : Scalar) : (s.setK v).f = s.f := rfl
@[simp] theorem State.setK_k (v : Scalar) : (s.setK v).k = v := rfl
@[simp] theorem State.setK_swap (v : Scalar) : (s.setK v).swap = s.swap := rfl
@[simp] theorem State.setK_round (v : Scalar) : (s.setK v).round = s.round := rfl
@[simp] theorem State.setK_lact (v : Scalar) : (s.setK v).lact = s.lact := rfl
@[simp] theorem State.setK_buf (v : Scalar) : (s.setK v).buf = s.buf := rfl
@[simp] theorem State.setK_len (v : Scalar) : (s.setK v).len = s.len := rfl
@[simp] theorem State.setK_cmdlast (v : Scalar) : (s.setK v).cmdlast = s.cmdlast := rfl
@[simp] theorem State.setK_cur (v : Scalar) : (s.setK v).cur = s.cur := rfl
@[simp] theorem State.setK_busy (v : Scalar) : (s.setK v).busy = s.busy := rfl
@[simp] theorem State.setK_done (v : Scalar) : (s.setK v).done = s.done := rfl
@[simp] theorem State.setK_err (v : Scalar) : (s.setK v).err = s.err := rfl
@[simp] theorem State.setK_errcode (v : Scalar) : (s.setK v).errcode = s.errcode := rfl
@[simp] theorem State.setK_cmdlost (v : Scalar) : (s.setK v).cmdlost = s.cmdlost := rfl
@[simp] theorem State.setK_accerr (v : Scalar) : (s.setK v).accerr = s.accerr := rfl
@[simp] theorem State.setK_ie (v : Scalar) : (s.setK v).ie = s.ie := rfl
@[simp] theorem State.setK_inReset (v : Scalar) : (s.setK v).inReset = s.inReset := rfl
@[simp] theorem State.setK_sched (v : Scalar) : (s.setK v).sched = s.sched := rfl
@[simp] theorem State.setK_rdata (v : Scalar) : (s.setK v).rdata = s.rdata := rfl

@[simp] theorem State.setLadder_f (c : Bool) (n : BitVec 9) (l : Bool) : (s.setLadder c n l).f = s.f := rfl
@[simp] theorem State.setLadder_k (c : Bool) (n : BitVec 9) (l : Bool) : (s.setLadder c n l).k = s.k := rfl
@[simp] theorem State.setLadder_swap (c : Bool) (n : BitVec 9) (l : Bool) : (s.setLadder c n l).swap = c := rfl
@[simp] theorem State.setLadder_round (c : Bool) (n : BitVec 9) (l : Bool) : (s.setLadder c n l).round = n := rfl
@[simp] theorem State.setLadder_lact (c : Bool) (n : BitVec 9) (l : Bool) : (s.setLadder c n l).lact = l := rfl
@[simp] theorem State.setLadder_buf (c : Bool) (n : BitVec 9) (l : Bool) : (s.setLadder c n l).buf = s.buf := rfl
@[simp] theorem State.setLadder_len (c : Bool) (n : BitVec 9) (l : Bool) : (s.setLadder c n l).len = s.len := rfl
@[simp] theorem State.setLadder_cmdlast (c : Bool) (n : BitVec 9) (l : Bool) : (s.setLadder c n l).cmdlast = s.cmdlast := rfl
@[simp] theorem State.setLadder_cur (c : Bool) (n : BitVec 9) (l : Bool) : (s.setLadder c n l).cur = s.cur := rfl
@[simp] theorem State.setLadder_busy (c : Bool) (n : BitVec 9) (l : Bool) : (s.setLadder c n l).busy = s.busy := rfl
@[simp] theorem State.setLadder_done (c : Bool) (n : BitVec 9) (l : Bool) : (s.setLadder c n l).done = s.done := rfl
@[simp] theorem State.setLadder_err (c : Bool) (n : BitVec 9) (l : Bool) : (s.setLadder c n l).err = s.err := rfl
@[simp] theorem State.setLadder_errcode (c : Bool) (n : BitVec 9) (l : Bool) : (s.setLadder c n l).errcode = s.errcode := rfl
@[simp] theorem State.setLadder_cmdlost (c : Bool) (n : BitVec 9) (l : Bool) : (s.setLadder c n l).cmdlost = s.cmdlost := rfl
@[simp] theorem State.setLadder_accerr (c : Bool) (n : BitVec 9) (l : Bool) : (s.setLadder c n l).accerr = s.accerr := rfl
@[simp] theorem State.setLadder_ie (c : Bool) (n : BitVec 9) (l : Bool) : (s.setLadder c n l).ie = s.ie := rfl
@[simp] theorem State.setLadder_inReset (c : Bool) (n : BitVec 9) (l : Bool) : (s.setLadder c n l).inReset = s.inReset := rfl
@[simp] theorem State.setLadder_sched (c : Bool) (n : BitVec 9) (l : Bool) : (s.setLadder c n l).sched = s.sched := rfl
@[simp] theorem State.setLadder_rdata (c : Bool) (n : BitVec 9) (l : Bool) : (s.setLadder c n l).rdata = s.rdata := rfl

@[simp] theorem State.setPairs_k (q : Pairs) : (s.setPairs q).k = s.k := rfl
@[simp] theorem State.setPairs_swap (q : Pairs) : (s.setPairs q).swap = s.swap := rfl
@[simp] theorem State.setPairs_round (q : Pairs) : (s.setPairs q).round = s.round := rfl
@[simp] theorem State.setPairs_lact (q : Pairs) : (s.setPairs q).lact = s.lact := rfl
@[simp] theorem State.setPairs_buf (q : Pairs) : (s.setPairs q).buf = s.buf := rfl
@[simp] theorem State.setPairs_len (q : Pairs) : (s.setPairs q).len = s.len := rfl
@[simp] theorem State.setPairs_cmdlast (q : Pairs) : (s.setPairs q).cmdlast = s.cmdlast := rfl
@[simp] theorem State.setPairs_cur (q : Pairs) : (s.setPairs q).cur = s.cur := rfl
@[simp] theorem State.setPairs_busy (q : Pairs) : (s.setPairs q).busy = s.busy := rfl
@[simp] theorem State.setPairs_done (q : Pairs) : (s.setPairs q).done = s.done := rfl
@[simp] theorem State.setPairs_err (q : Pairs) : (s.setPairs q).err = s.err := rfl
@[simp] theorem State.setPairs_errcode (q : Pairs) : (s.setPairs q).errcode = s.errcode := rfl
@[simp] theorem State.setPairs_cmdlost (q : Pairs) : (s.setPairs q).cmdlost = s.cmdlost := rfl
@[simp] theorem State.setPairs_accerr (q : Pairs) : (s.setPairs q).accerr = s.accerr := rfl
@[simp] theorem State.setPairs_ie (q : Pairs) : (s.setPairs q).ie = s.ie := rfl
@[simp] theorem State.setPairs_inReset (q : Pairs) : (s.setPairs q).inReset = s.inReset := rfl
@[simp] theorem State.setPairs_sched (q : Pairs) : (s.setPairs q).sched = s.sched := rfl
@[simp] theorem State.setPairs_rdata (q : Pairs) : (s.setPairs q).rdata = s.rdata := rfl

@[simp] theorem State.putBuf_f (n : Buf) (v : Bytes32) : (s.putBuf n v).f = s.f := rfl
@[simp] theorem State.putBuf_k (n : Buf) (v : Bytes32) : (s.putBuf n v).k = s.k := rfl
@[simp] theorem State.putBuf_swap (n : Buf) (v : Bytes32) : (s.putBuf n v).swap = s.swap := rfl
@[simp] theorem State.putBuf_round (n : Buf) (v : Bytes32) : (s.putBuf n v).round = s.round := rfl
@[simp] theorem State.putBuf_lact (n : Buf) (v : Bytes32) : (s.putBuf n v).lact = s.lact := rfl
@[simp] theorem State.putBuf_buf (n : Buf) (v : Bytes32) : (s.putBuf n v).buf = s.buf.set n.val v n.isLt := rfl
@[simp] theorem State.putBuf_len (n : Buf) (v : Bytes32) : (s.putBuf n v).len = s.len := rfl
@[simp] theorem State.putBuf_cmdlast (n : Buf) (v : Bytes32) : (s.putBuf n v).cmdlast = s.cmdlast := rfl
@[simp] theorem State.putBuf_cur (n : Buf) (v : Bytes32) : (s.putBuf n v).cur = s.cur := rfl
@[simp] theorem State.putBuf_busy (n : Buf) (v : Bytes32) : (s.putBuf n v).busy = s.busy := rfl
@[simp] theorem State.putBuf_done (n : Buf) (v : Bytes32) : (s.putBuf n v).done = s.done := rfl
@[simp] theorem State.putBuf_err (n : Buf) (v : Bytes32) : (s.putBuf n v).err = s.err := rfl
@[simp] theorem State.putBuf_errcode (n : Buf) (v : Bytes32) : (s.putBuf n v).errcode = s.errcode := rfl
@[simp] theorem State.putBuf_cmdlost (n : Buf) (v : Bytes32) : (s.putBuf n v).cmdlost = s.cmdlost := rfl
@[simp] theorem State.putBuf_accerr (n : Buf) (v : Bytes32) : (s.putBuf n v).accerr = s.accerr := rfl
@[simp] theorem State.putBuf_ie (n : Buf) (v : Bytes32) : (s.putBuf n v).ie = s.ie := rfl
@[simp] theorem State.putBuf_inReset (n : Buf) (v : Bytes32) : (s.putBuf n v).inReset = s.inReset := rfl
@[simp] theorem State.putBuf_sched (n : Buf) (v : Bytes32) : (s.putBuf n v).sched = s.sched := rfl
@[simp] theorem State.putBuf_rdata (n : Buf) (v : Bytes32) : (s.putBuf n v).rdata = s.rdata := rfl

@[simp] theorem State.putLen_f (n : Buf) (v : BitVec 6) : (s.putLen n v).f = s.f := rfl
@[simp] theorem State.putLen_k (n : Buf) (v : BitVec 6) : (s.putLen n v).k = s.k := rfl
@[simp] theorem State.putLen_swap (n : Buf) (v : BitVec 6) : (s.putLen n v).swap = s.swap := rfl
@[simp] theorem State.putLen_round (n : Buf) (v : BitVec 6) : (s.putLen n v).round = s.round := rfl
@[simp] theorem State.putLen_lact (n : Buf) (v : BitVec 6) : (s.putLen n v).lact = s.lact := rfl
@[simp] theorem State.putLen_buf (n : Buf) (v : BitVec 6) : (s.putLen n v).buf = s.buf := rfl
@[simp] theorem State.putLen_len (n : Buf) (v : BitVec 6) : (s.putLen n v).len = s.len.set n.val v n.isLt := rfl
@[simp] theorem State.putLen_cmdlast (n : Buf) (v : BitVec 6) : (s.putLen n v).cmdlast = s.cmdlast := rfl
@[simp] theorem State.putLen_cur (n : Buf) (v : BitVec 6) : (s.putLen n v).cur = s.cur := rfl
@[simp] theorem State.putLen_busy (n : Buf) (v : BitVec 6) : (s.putLen n v).busy = s.busy := rfl
@[simp] theorem State.putLen_done (n : Buf) (v : BitVec 6) : (s.putLen n v).done = s.done := rfl
@[simp] theorem State.putLen_err (n : Buf) (v : BitVec 6) : (s.putLen n v).err = s.err := rfl
@[simp] theorem State.putLen_errcode (n : Buf) (v : BitVec 6) : (s.putLen n v).errcode = s.errcode := rfl
@[simp] theorem State.putLen_cmdlost (n : Buf) (v : BitVec 6) : (s.putLen n v).cmdlost = s.cmdlost := rfl
@[simp] theorem State.putLen_accerr (n : Buf) (v : BitVec 6) : (s.putLen n v).accerr = s.accerr := rfl
@[simp] theorem State.putLen_ie (n : Buf) (v : BitVec 6) : (s.putLen n v).ie = s.ie := rfl
@[simp] theorem State.putLen_inReset (n : Buf) (v : BitVec 6) : (s.putLen n v).inReset = s.inReset := rfl
@[simp] theorem State.putLen_sched (n : Buf) (v : BitVec 6) : (s.putLen n v).sched = s.sched := rfl
@[simp] theorem State.putLen_rdata (n : Buf) (v : BitVec 6) : (s.putLen n v).rdata = s.rdata := rfl

@[simp] theorem State.setBuf_f (n : Buf) (v : Bytes32) : (s.setBuf n v).f = s.f := rfl
@[simp] theorem State.setBuf_k (n : Buf) (v : Bytes32) : (s.setBuf n v).k = s.k := rfl
@[simp] theorem State.setBuf_swap (n : Buf) (v : Bytes32) : (s.setBuf n v).swap = s.swap := rfl
@[simp] theorem State.setBuf_round (n : Buf) (v : Bytes32) : (s.setBuf n v).round = s.round := rfl
@[simp] theorem State.setBuf_lact (n : Buf) (v : Bytes32) : (s.setBuf n v).lact = s.lact := rfl
@[simp] theorem State.setBuf_buf (n : Buf) (v : Bytes32) : (s.setBuf n v).buf = s.buf.set n.val v n.isLt := rfl
@[simp] theorem State.setBuf_len (n : Buf) (v : Bytes32) : (s.setBuf n v).len = s.len.set n.val 32#6 n.isLt := rfl
@[simp] theorem State.setBuf_cmdlast (n : Buf) (v : Bytes32) : (s.setBuf n v).cmdlast = s.cmdlast := rfl
@[simp] theorem State.setBuf_cur (n : Buf) (v : Bytes32) : (s.setBuf n v).cur = s.cur := rfl
@[simp] theorem State.setBuf_busy (n : Buf) (v : Bytes32) : (s.setBuf n v).busy = s.busy := rfl
@[simp] theorem State.setBuf_done (n : Buf) (v : Bytes32) : (s.setBuf n v).done = s.done := rfl
@[simp] theorem State.setBuf_err (n : Buf) (v : Bytes32) : (s.setBuf n v).err = s.err := rfl
@[simp] theorem State.setBuf_errcode (n : Buf) (v : Bytes32) : (s.setBuf n v).errcode = s.errcode := rfl
@[simp] theorem State.setBuf_cmdlost (n : Buf) (v : Bytes32) : (s.setBuf n v).cmdlost = s.cmdlost := rfl
@[simp] theorem State.setBuf_accerr (n : Buf) (v : Bytes32) : (s.setBuf n v).accerr = s.accerr := rfl
@[simp] theorem State.setBuf_ie (n : Buf) (v : Bytes32) : (s.setBuf n v).ie = s.ie := rfl
@[simp] theorem State.setBuf_inReset (n : Buf) (v : Bytes32) : (s.setBuf n v).inReset = s.inReset := rfl
@[simp] theorem State.setBuf_sched (n : Buf) (v : Bytes32) : (s.setBuf n v).sched = s.sched := rfl
@[simp] theorem State.setBuf_rdata (n : Buf) (v : Bytes32) : (s.setBuf n v).rdata = s.rdata := rfl

@[simp] theorem State.setBufWord_f (n : Buf) (j : Fin 8) (v : Word) : (s.setBufWord n j v).f = s.f := rfl
@[simp] theorem State.setBufWord_k (n : Buf) (j : Fin 8) (v : Word) : (s.setBufWord n j v).k = s.k := rfl
@[simp] theorem State.setBufWord_swap (n : Buf) (j : Fin 8) (v : Word) : (s.setBufWord n j v).swap = s.swap := rfl
@[simp] theorem State.setBufWord_round (n : Buf) (j : Fin 8) (v : Word) : (s.setBufWord n j v).round = s.round := rfl
@[simp] theorem State.setBufWord_lact (n : Buf) (j : Fin 8) (v : Word) : (s.setBufWord n j v).lact = s.lact := rfl
@[simp] theorem State.setBufWord_len (n : Buf) (j : Fin 8) (v : Word) : (s.setBufWord n j v).len = s.len := rfl
@[simp] theorem State.setBufWord_cmdlast (n : Buf) (j : Fin 8) (v : Word) : (s.setBufWord n j v).cmdlast = s.cmdlast := rfl
@[simp] theorem State.setBufWord_cur (n : Buf) (j : Fin 8) (v : Word) : (s.setBufWord n j v).cur = s.cur := rfl
@[simp] theorem State.setBufWord_busy (n : Buf) (j : Fin 8) (v : Word) : (s.setBufWord n j v).busy = s.busy := rfl
@[simp] theorem State.setBufWord_done (n : Buf) (j : Fin 8) (v : Word) : (s.setBufWord n j v).done = s.done := rfl
@[simp] theorem State.setBufWord_err (n : Buf) (j : Fin 8) (v : Word) : (s.setBufWord n j v).err = s.err := rfl
@[simp] theorem State.setBufWord_errcode (n : Buf) (j : Fin 8) (v : Word) : (s.setBufWord n j v).errcode = s.errcode := rfl
@[simp] theorem State.setBufWord_cmdlost (n : Buf) (j : Fin 8) (v : Word) : (s.setBufWord n j v).cmdlost = s.cmdlost := rfl
@[simp] theorem State.setBufWord_accerr (n : Buf) (j : Fin 8) (v : Word) : (s.setBufWord n j v).accerr = s.accerr := rfl
@[simp] theorem State.setBufWord_ie (n : Buf) (j : Fin 8) (v : Word) : (s.setBufWord n j v).ie = s.ie := rfl
@[simp] theorem State.setBufWord_inReset (n : Buf) (j : Fin 8) (v : Word) : (s.setBufWord n j v).inReset = s.inReset := rfl
@[simp] theorem State.setBufWord_sched (n : Buf) (j : Fin 8) (v : Word) : (s.setBufWord n j v).sched = s.sched := rfl
@[simp] theorem State.setBufWord_rdata (n : Buf) (j : Fin 8) (v : Word) : (s.setBufWord n j v).rdata = s.rdata := rfl

@[simp] theorem State.markSuccess_f : (s.markSuccess).f = s.f := rfl
@[simp] theorem State.markSuccess_k : (s.markSuccess).k = s.k := rfl
@[simp] theorem State.markSuccess_swap : (s.markSuccess).swap = s.swap := rfl
@[simp] theorem State.markSuccess_round : (s.markSuccess).round = s.round := rfl
@[simp] theorem State.markSuccess_lact : (s.markSuccess).lact = s.lact := rfl
@[simp] theorem State.markSuccess_buf : (s.markSuccess).buf = s.buf := rfl
@[simp] theorem State.markSuccess_len : (s.markSuccess).len = s.len := rfl
@[simp] theorem State.markSuccess_cmdlast : (s.markSuccess).cmdlast = s.cmdlast := rfl
@[simp] theorem State.markSuccess_cur : (s.markSuccess).cur = s.cur := rfl
@[simp] theorem State.markSuccess_busy : (s.markSuccess).busy = false := rfl
@[simp] theorem State.markSuccess_done : (s.markSuccess).done = true := rfl
@[simp] theorem State.markSuccess_err : (s.markSuccess).err = false := rfl
@[simp] theorem State.markSuccess_errcode : (s.markSuccess).errcode = 0 := rfl
@[simp] theorem State.markSuccess_cmdlost : (s.markSuccess).cmdlost = s.cmdlost := rfl
@[simp] theorem State.markSuccess_accerr : (s.markSuccess).accerr = s.accerr := rfl
@[simp] theorem State.markSuccess_ie : (s.markSuccess).ie = s.ie := rfl
@[simp] theorem State.markSuccess_inReset : (s.markSuccess).inReset = s.inReset := rfl
@[simp] theorem State.markSuccess_sched : (s.markSuccess).sched = s.sched := rfl
@[simp] theorem State.markSuccess_rdata : (s.markSuccess).rdata = s.rdata := rfl

@[simp] theorem State.markError_f (c : BitVec 4) : (s.markError c).f = s.f := rfl
@[simp] theorem State.markError_k (c : BitVec 4) : (s.markError c).k = s.k := rfl
@[simp] theorem State.markError_swap (c : BitVec 4) : (s.markError c).swap = s.swap := rfl
@[simp] theorem State.markError_round (c : BitVec 4) : (s.markError c).round = s.round := rfl
@[simp] theorem State.markError_lact (c : BitVec 4) : (s.markError c).lact = s.lact := rfl
@[simp] theorem State.markError_buf (c : BitVec 4) : (s.markError c).buf = s.buf := rfl
@[simp] theorem State.markError_len (c : BitVec 4) : (s.markError c).len = s.len := rfl
@[simp] theorem State.markError_cmdlast (c : BitVec 4) : (s.markError c).cmdlast = s.cmdlast := rfl
@[simp] theorem State.markError_cur (c : BitVec 4) : (s.markError c).cur = s.cur := rfl
@[simp] theorem State.markError_busy (c : BitVec 4) : (s.markError c).busy = false := rfl
@[simp] theorem State.markError_done (c : BitVec 4) : (s.markError c).done = true := rfl
@[simp] theorem State.markError_err (c : BitVec 4) : (s.markError c).err = true := rfl
@[simp] theorem State.markError_errcode (c : BitVec 4) : (s.markError c).errcode = c := rfl
@[simp] theorem State.markError_cmdlost (c : BitVec 4) : (s.markError c).cmdlost = s.cmdlost := rfl
@[simp] theorem State.markError_accerr (c : BitVec 4) : (s.markError c).accerr = s.accerr := rfl
@[simp] theorem State.markError_ie (c : BitVec 4) : (s.markError c).ie = s.ie := rfl
@[simp] theorem State.markError_inReset (c : BitVec 4) : (s.markError c).inReset = s.inReset := rfl
@[simp] theorem State.markError_sched (c : BitVec 4) : (s.markError c).sched = s.sched := rfl
@[simp] theorem State.markError_rdata (c : BitVec 4) : (s.markError c).rdata = s.rdata := rfl

@[simp] theorem State.accept_f (v : Word) : (s.accept v).f = s.f := rfl
@[simp] theorem State.accept_k (v : Word) : (s.accept v).k = s.k := rfl
@[simp] theorem State.accept_swap (v : Word) : (s.accept v).swap = s.swap := rfl
@[simp] theorem State.accept_round (v : Word) : (s.accept v).round = s.round := rfl
@[simp] theorem State.accept_lact (v : Word) : (s.accept v).lact = s.lact := rfl
@[simp] theorem State.accept_buf (v : Word) : (s.accept v).buf = s.buf := rfl
@[simp] theorem State.accept_len (v : Word) : (s.accept v).len = s.len := rfl
@[simp] theorem State.accept_cmdlast (v : Word) : (s.accept v).cmdlast = v := rfl
@[simp] theorem State.accept_cur (v : Word) : (s.accept v).cur = v := rfl
@[simp] theorem State.accept_busy (v : Word) : (s.accept v).busy = true := rfl
@[simp] theorem State.accept_done (v : Word) : (s.accept v).done = false := rfl
@[simp] theorem State.accept_err (v : Word) : (s.accept v).err = false := rfl
@[simp] theorem State.accept_errcode (v : Word) : (s.accept v).errcode = 0 := rfl
@[simp] theorem State.accept_cmdlost (v : Word) : (s.accept v).cmdlost = s.cmdlost := rfl
@[simp] theorem State.accept_accerr (v : Word) : (s.accept v).accerr = s.accerr := rfl
@[simp] theorem State.accept_ie (v : Word) : (s.accept v).ie = s.ie := rfl
@[simp] theorem State.accept_inReset (v : Word) : (s.accept v).inReset = s.inReset := rfl
@[simp] theorem State.accept_sched (v : Word) : (s.accept v).sched = s.sched := rfl
@[simp] theorem State.accept_rdata (v : Word) : (s.accept v).rdata = s.rdata := rfl

@[simp] theorem State.raiseAccErr_f : (s.raiseAccErr).f = s.f := rfl
@[simp] theorem State.raiseAccErr_k : (s.raiseAccErr).k = s.k := rfl
@[simp] theorem State.raiseAccErr_swap : (s.raiseAccErr).swap = s.swap := rfl
@[simp] theorem State.raiseAccErr_round : (s.raiseAccErr).round = s.round := rfl
@[simp] theorem State.raiseAccErr_lact : (s.raiseAccErr).lact = s.lact := rfl
@[simp] theorem State.raiseAccErr_buf : (s.raiseAccErr).buf = s.buf := rfl
@[simp] theorem State.raiseAccErr_len : (s.raiseAccErr).len = s.len := rfl
@[simp] theorem State.raiseAccErr_cmdlast : (s.raiseAccErr).cmdlast = s.cmdlast := rfl
@[simp] theorem State.raiseAccErr_cur : (s.raiseAccErr).cur = s.cur := rfl
@[simp] theorem State.raiseAccErr_busy : (s.raiseAccErr).busy = s.busy := rfl
@[simp] theorem State.raiseAccErr_done : (s.raiseAccErr).done = s.done := rfl
@[simp] theorem State.raiseAccErr_err : (s.raiseAccErr).err = s.err := rfl
@[simp] theorem State.raiseAccErr_errcode : (s.raiseAccErr).errcode = s.errcode := rfl
@[simp] theorem State.raiseAccErr_cmdlost : (s.raiseAccErr).cmdlost = s.cmdlost := rfl
@[simp] theorem State.raiseAccErr_accerr : (s.raiseAccErr).accerr = true := rfl
@[simp] theorem State.raiseAccErr_ie : (s.raiseAccErr).ie = s.ie := rfl
@[simp] theorem State.raiseAccErr_inReset : (s.raiseAccErr).inReset = s.inReset := rfl
@[simp] theorem State.raiseAccErr_sched : (s.raiseAccErr).sched = s.sched := rfl
@[simp] theorem State.raiseAccErr_rdata : (s.raiseAccErr).rdata = s.rdata := rfl

@[simp] theorem State.raiseCmdLost_f : (s.raiseCmdLost).f = s.f := rfl
@[simp] theorem State.raiseCmdLost_k : (s.raiseCmdLost).k = s.k := rfl
@[simp] theorem State.raiseCmdLost_swap : (s.raiseCmdLost).swap = s.swap := rfl
@[simp] theorem State.raiseCmdLost_round : (s.raiseCmdLost).round = s.round := rfl
@[simp] theorem State.raiseCmdLost_lact : (s.raiseCmdLost).lact = s.lact := rfl
@[simp] theorem State.raiseCmdLost_buf : (s.raiseCmdLost).buf = s.buf := rfl
@[simp] theorem State.raiseCmdLost_len : (s.raiseCmdLost).len = s.len := rfl
@[simp] theorem State.raiseCmdLost_cmdlast : (s.raiseCmdLost).cmdlast = s.cmdlast := rfl
@[simp] theorem State.raiseCmdLost_cur : (s.raiseCmdLost).cur = s.cur := rfl
@[simp] theorem State.raiseCmdLost_busy : (s.raiseCmdLost).busy = s.busy := rfl
@[simp] theorem State.raiseCmdLost_done : (s.raiseCmdLost).done = s.done := rfl
@[simp] theorem State.raiseCmdLost_err : (s.raiseCmdLost).err = s.err := rfl
@[simp] theorem State.raiseCmdLost_errcode : (s.raiseCmdLost).errcode = s.errcode := rfl
@[simp] theorem State.raiseCmdLost_cmdlost : (s.raiseCmdLost).cmdlost = true := rfl
@[simp] theorem State.raiseCmdLost_accerr : (s.raiseCmdLost).accerr = s.accerr := rfl
@[simp] theorem State.raiseCmdLost_ie : (s.raiseCmdLost).ie = s.ie := rfl
@[simp] theorem State.raiseCmdLost_inReset : (s.raiseCmdLost).inReset = s.inReset := rfl
@[simp] theorem State.raiseCmdLost_sched : (s.raiseCmdLost).sched = s.sched := rfl
@[simp] theorem State.raiseCmdLost_rdata : (s.raiseCmdLost).rdata = s.rdata := rfl

@[simp] theorem State.clearStatus_f (v : Word) : (s.clearStatus v).f = s.f := rfl
@[simp] theorem State.clearStatus_k (v : Word) : (s.clearStatus v).k = s.k := rfl
@[simp] theorem State.clearStatus_swap (v : Word) : (s.clearStatus v).swap = s.swap := rfl
@[simp] theorem State.clearStatus_round (v : Word) : (s.clearStatus v).round = s.round := rfl
@[simp] theorem State.clearStatus_lact (v : Word) : (s.clearStatus v).lact = s.lact := rfl
@[simp] theorem State.clearStatus_buf (v : Word) : (s.clearStatus v).buf = s.buf := rfl
@[simp] theorem State.clearStatus_len (v : Word) : (s.clearStatus v).len = s.len := rfl
@[simp] theorem State.clearStatus_cmdlast (v : Word) : (s.clearStatus v).cmdlast = s.cmdlast := rfl
@[simp] theorem State.clearStatus_cur (v : Word) : (s.clearStatus v).cur = s.cur := rfl
@[simp] theorem State.clearStatus_busy (v : Word) : (s.clearStatus v).busy = s.busy := rfl
@[simp] theorem State.clearStatus_done (v : Word) : (s.clearStatus v).done = (s.done && !v.getLsbD 1) := rfl
@[simp] theorem State.clearStatus_err (v : Word) : (s.clearStatus v).err = s.err := rfl
@[simp] theorem State.clearStatus_errcode (v : Word) : (s.clearStatus v).errcode = s.errcode := rfl
@[simp] theorem State.clearStatus_cmdlost (v : Word) : (s.clearStatus v).cmdlost = (s.cmdlost && !v.getLsbD 8) := rfl
@[simp] theorem State.clearStatus_accerr (v : Word) : (s.clearStatus v).accerr = (s.accerr && !v.getLsbD 9) := rfl
@[simp] theorem State.clearStatus_ie (v : Word) : (s.clearStatus v).ie = s.ie := rfl
@[simp] theorem State.clearStatus_inReset (v : Word) : (s.clearStatus v).inReset = s.inReset := rfl
@[simp] theorem State.clearStatus_sched (v : Word) : (s.clearStatus v).sched = s.sched := rfl
@[simp] theorem State.clearStatus_rdata (v : Word) : (s.clearStatus v).rdata = s.rdata := rfl

@[simp] theorem State.setCtrl_f (v : Word) : (s.setCtrl v).f = s.f := rfl
@[simp] theorem State.setCtrl_k (v : Word) : (s.setCtrl v).k = s.k := rfl
@[simp] theorem State.setCtrl_swap (v : Word) : (s.setCtrl v).swap = s.swap := rfl
@[simp] theorem State.setCtrl_round (v : Word) : (s.setCtrl v).round = s.round := rfl
@[simp] theorem State.setCtrl_lact (v : Word) : (s.setCtrl v).lact = s.lact := rfl
@[simp] theorem State.setCtrl_buf (v : Word) : (s.setCtrl v).buf = s.buf := rfl
@[simp] theorem State.setCtrl_len (v : Word) : (s.setCtrl v).len = s.len := rfl
@[simp] theorem State.setCtrl_cmdlast (v : Word) : (s.setCtrl v).cmdlast = s.cmdlast := rfl
@[simp] theorem State.setCtrl_cur (v : Word) : (s.setCtrl v).cur = s.cur := rfl
@[simp] theorem State.setCtrl_busy (v : Word) : (s.setCtrl v).busy = s.busy := rfl
@[simp] theorem State.setCtrl_done (v : Word) : (s.setCtrl v).done = s.done := rfl
@[simp] theorem State.setCtrl_err (v : Word) : (s.setCtrl v).err = s.err := rfl
@[simp] theorem State.setCtrl_errcode (v : Word) : (s.setCtrl v).errcode = s.errcode := rfl
@[simp] theorem State.setCtrl_cmdlost (v : Word) : (s.setCtrl v).cmdlost = s.cmdlost := rfl
@[simp] theorem State.setCtrl_accerr (v : Word) : (s.setCtrl v).accerr = s.accerr := rfl
@[simp] theorem State.setCtrl_ie (v : Word) : (s.setCtrl v).ie = v.getLsbD 0 := rfl
@[simp] theorem State.setCtrl_inReset (v : Word) : (s.setCtrl v).inReset = s.inReset := rfl
@[simp] theorem State.setCtrl_sched (v : Word) : (s.setCtrl v).sched = s.sched := rfl
@[simp] theorem State.setCtrl_rdata (v : Word) : (s.setCtrl v).rdata = s.rdata := rfl

@[simp] theorem State.returnWord_f (v : Word) : (s.returnWord v).f = s.f := rfl
@[simp] theorem State.returnWord_k (v : Word) : (s.returnWord v).k = s.k := rfl
@[simp] theorem State.returnWord_swap (v : Word) : (s.returnWord v).swap = s.swap := rfl
@[simp] theorem State.returnWord_round (v : Word) : (s.returnWord v).round = s.round := rfl
@[simp] theorem State.returnWord_lact (v : Word) : (s.returnWord v).lact = s.lact := rfl
@[simp] theorem State.returnWord_buf (v : Word) : (s.returnWord v).buf = s.buf := rfl
@[simp] theorem State.returnWord_len (v : Word) : (s.returnWord v).len = s.len := rfl
@[simp] theorem State.returnWord_cmdlast (v : Word) : (s.returnWord v).cmdlast = s.cmdlast := rfl
@[simp] theorem State.returnWord_cur (v : Word) : (s.returnWord v).cur = s.cur := rfl
@[simp] theorem State.returnWord_busy (v : Word) : (s.returnWord v).busy = s.busy := rfl
@[simp] theorem State.returnWord_done (v : Word) : (s.returnWord v).done = s.done := rfl
@[simp] theorem State.returnWord_err (v : Word) : (s.returnWord v).err = s.err := rfl
@[simp] theorem State.returnWord_errcode (v : Word) : (s.returnWord v).errcode = s.errcode := rfl
@[simp] theorem State.returnWord_cmdlost (v : Word) : (s.returnWord v).cmdlost = s.cmdlost := rfl
@[simp] theorem State.returnWord_accerr (v : Word) : (s.returnWord v).accerr = s.accerr := rfl
@[simp] theorem State.returnWord_ie (v : Word) : (s.returnWord v).ie = s.ie := rfl
@[simp] theorem State.returnWord_inReset (v : Word) : (s.returnWord v).inReset = s.inReset := rfl
@[simp] theorem State.returnWord_sched (v : Word) : (s.returnWord v).sched = s.sched := rfl
@[simp] theorem State.returnWord_rdata (v : Word) : (s.returnWord v).rdata = some v := rfl

@[simp] theorem State.popEvent_f : (s.popEvent).f = s.f := rfl
@[simp] theorem State.popEvent_k : (s.popEvent).k = s.k := rfl
@[simp] theorem State.popEvent_swap : (s.popEvent).swap = s.swap := rfl
@[simp] theorem State.popEvent_round : (s.popEvent).round = s.round := rfl
@[simp] theorem State.popEvent_lact : (s.popEvent).lact = s.lact := rfl
@[simp] theorem State.popEvent_buf : (s.popEvent).buf = s.buf := rfl
@[simp] theorem State.popEvent_len : (s.popEvent).len = s.len := rfl
@[simp] theorem State.popEvent_cmdlast : (s.popEvent).cmdlast = s.cmdlast := rfl
@[simp] theorem State.popEvent_cur : (s.popEvent).cur = s.cur := rfl
@[simp] theorem State.popEvent_busy : (s.popEvent).busy = s.busy := rfl
@[simp] theorem State.popEvent_done : (s.popEvent).done = s.done := rfl
@[simp] theorem State.popEvent_err : (s.popEvent).err = s.err := rfl
@[simp] theorem State.popEvent_errcode : (s.popEvent).errcode = s.errcode := rfl
@[simp] theorem State.popEvent_cmdlost : (s.popEvent).cmdlost = s.cmdlost := rfl
@[simp] theorem State.popEvent_accerr : (s.popEvent).accerr = s.accerr := rfl
@[simp] theorem State.popEvent_ie : (s.popEvent).ie = s.ie := rfl
@[simp] theorem State.popEvent_inReset : (s.popEvent).inReset = s.inReset := rfl
@[simp] theorem State.popEvent_sched : (s.popEvent).sched = s.sched.tail := rfl
@[simp] theorem State.popEvent_rdata : (s.popEvent).rdata = s.rdata := rfl

end Sys2Proof.Machine
end

