-- ==== Sys2Proof/Laws/Ops.lean ====
section
/-! SUPPORT. The shared operations of Machine/Ops.lean and Machine/Operands.lean, each said once: reads after writes, what a completion and a length check can answer. -/

namespace Sys2Proof.Machine

open Sys2Proof.Config

variable (s : State)

@[simp] theorem getF_setF_same (r : FReg) (v : Nat) : (s.setF r v).getF r = v := by
  simp [State.getF]

theorem getF_setF_other {r r' : FReg} (v : Nat) (h : r' ≠ r) : (s.setF r v).getF r' = s.getF r' := by
  have : r.val ≠ r'.val := fun e => h (Fin.ext e.symm)
  simp [State.getF, this]

/-- A field register after a write to any field register. -/
theorem getF_setF (r r' : FReg) (v : Nat) : (s.setF r v).getF r' = if r' = r then v else s.getF r' := by
  split
  next h => rw [h, getF_setF_same]
  next h => exact getF_setF_other s v h

@[simp] theorem getBuf_setBuf_same (n : Buf) (v : Bytes32) : (s.setBuf n v).getBuf n = v := by
  simp [State.getBuf]

theorem getBuf_setBuf_other {n n' : Buf} (v : Bytes32) (h : n' ≠ n) : (s.setBuf n v).getBuf n' = s.getBuf n' := by
  have : n.val ≠ n'.val := fun e => h (Fin.ext e.symm)
  simp [State.getBuf, this]

@[simp] theorem getLen_setBuf_same (n : Buf) (v : Bytes32) : (s.setBuf n v).getLen n = 32#6 := by
  simp [State.getLen]

theorem getLen_setBuf_other {n n' : Buf} (v : Bytes32) (h : n' ≠ n) : (s.setBuf n v).getLen n' = s.getLen n' := by
  have : n.val ≠ n'.val := fun e => h (Fin.ext e.symm)
  simp [State.getLen, this]

theorem getBuf_putBuf_same (n : Buf) (v : Bytes32) : (s.putBuf n v).getBuf n = v := by
  simp [State.getBuf]

theorem getBuf_putBuf_other {n n' : Buf} (v : Bytes32) (h : n' ≠ n) : (s.putBuf n v).getBuf n' = s.getBuf n' := by
  have : n.val ≠ n'.val := fun e => h (Fin.ext e.symm)
  simp [State.getBuf, this]

/-- The coordinate registers after they are written; every other register keeps its value. -/
theorem getF_setPairs (q : Pairs) (r : FReg) :
    (s.setPairs q).getF r =
      if r = rZ3 then q.z3 else if r = rX3 then q.x3 else if r = rZ2 then q.z2 else if r = rX2 then q.x2 else s.getF r := by
  simp only [State.setPairs, getF_setF]

@[simp] theorem getPairs_setPairs (q : Pairs) : (s.setPairs q).getPairs = q := by
  cases q
  simp only [State.getPairs, getF_setPairs]
  rfl

@[simp] theorem conclude_ok (t : State) : s.conclude (.ok t) = .next t.markSuccess := rfl

@[simp] theorem conclude_error (e : CmdError) : s.conclude (.error e) = .next (s.markError e.code) := rfl

/-- Everything a completion can do. -/
theorem conclude_cases (r : Result) :
    (∃ u, r = .ok u ∧ s.conclude r = .next u.markSuccess) ∨ (∃ e, r = .error e ∧ s.conclude r = .next (s.markError e.code)) := by
  cases r with
  | ok u => exact .inl ⟨u, rfl, rfl⟩
  | error e => exact .inr ⟨e, rfl, rfl⟩

@[simp] theorem requireLen_of_eq {n : Buf} (r : Result) (h : s.getLen n = 32#6) : s.requireLen n r = r := if_pos h

@[simp] theorem requireLen_of_ne {n : Buf} (r : Result) (h : s.getLen n ≠ 32#6) : s.requireLen n r = .error .invalidLength :=
  if_neg h

/-- Everything a length check can do. -/
theorem requireLen_cases (n : Buf) (r : Result) :
    (s.getLen n = 32#6 ∧ s.requireLen n r = r) ∨ (s.getLen n ≠ 32#6 ∧ s.requireLen n r = .error .invalidLength) := by
  by_cases h : s.getLen n = 32#6
  · exact .inl ⟨h, requireLen_of_eq s r h⟩
  · exact .inr ⟨h, requireLen_of_ne s r h⟩

end Sys2Proof.Machine
end

