-- ==== Sys2Proof/Laws/Bus.lean ====
section
/-! SUPPORT. The bus window: what a read, a write and an access can do, said once. -/

namespace Sys2Proof.Machine

open Sys2Proof.Config

variable (s : State)

/-- Everything a read can do: return the register's value, or 0 with ACCERR set. -/
theorem busRead_cases (off : Nat) (size : AccessSize) :
    (∃ r, accessTarget off size = some r ∧ s.blocks r = false ∧ s.busRead off size = s.returnWord (s.regValue r)) ∨
    s.busRead off size = s.raiseAccErr.returnWord 0 := by
  rw [State.busRead]
  cases accessTarget off size with
  | none => exact .inr rfl
  | some r => cases h : s.blocks r <;> simp [h]

/-- Everything a write can do: the register's write, or nothing but ACCERR set. -/
theorem busWrite_cases (off : Nat) (size : AccessSize) (v : Word) :
    (∃ r, accessTarget off size = some r ∧ s.blocks r = false ∧ s.busWrite off size v = s.writeReg r v) ∨
    s.busWrite off size v = s.raiseAccErr := by
  rw [State.busWrite]
  cases accessTarget off size with
  | none => exact .inr rfl
  | some r => cases h : s.blocks r <;> simp [h]

/-- Everything a write to CMD can do. -/
theorem writeCmd_cases (v : Word) :
    (s.busy = true ∧ s.writeCmd v = s.raiseCmdLost) ∨ (s.busy = false ∧ s.writeCmd v = s.accept v) := by
  rw [State.writeCmd]
  cases h : s.busy <;> simp

/-- What no host access changes: no bus path reaches the field registers, K or the ladder fields, nor the reset input and the
events to come. -/
abbrev State.sameCore (t s : State) : Prop :=
  t.f = s.f ∧ t.k = s.k ∧ t.swap = s.swap ∧ t.round = s.round ∧ t.lact = s.lact ∧ t.inReset = s.inReset ∧ t.sched = s.sched

theorem sameCore_refl : s.sameCore s := ⟨rfl, rfl, rfl, rfl, rfl, rfl, rfl⟩

theorem sameCore_writeReg (r : Reg) (v : Word) : (s.writeReg r v).sameCore s := by
  cases r with
  | cmd => obtain ⟨_, h⟩ | ⟨_, h⟩ := writeCmd_cases s v <;> rw [State.writeReg, h] <;> exact ⟨rfl, rfl, rfl, rfl, rfl, rfl, rfl⟩
  | status => exact ⟨rfl, rfl, rfl, rfl, rfl, rfl, rfl⟩
  | ctrl => exact ⟨rfl, rfl, rfl, rfl, rfl, rfl, rfl⟩
  | lstate => exact sameCore_refl s
  | len n => exact ⟨rfl, rfl, rfl, rfl, rfl, rfl, rfl⟩
  | word n j => exact ⟨rfl, rfl, rfl, rfl, rfl, rfl, rfl⟩

theorem sameCore_busRead (off : Nat) (size : AccessSize) : (s.busRead off size).sameCore s := by
  obtain ⟨r, _, _, h⟩ | h := busRead_cases s off size <;> rw [h] <;> exact ⟨rfl, rfl, rfl, rfl, rfl, rfl, rfl⟩

theorem sameCore_busWrite (off : Nat) (size : AccessSize) (v : Word) : (s.busWrite off size v).sameCore s := by
  obtain ⟨r, _, _, h⟩ | h := busWrite_cases s off size v
  · rw [h]; exact sameCore_writeReg s r v
  · rw [h]; exact ⟨rfl, rfl, rfl, rfl, rfl, rfl, rfl⟩

/-- Everything an access at a window offset can do. -/
theorem windowAccess_cases (off : Nat) (size : AccessSize) (op : AccessOp) :
    (s.inReset = true ∧ (s.windowAccess off size op = s ∨ s.windowAccess off size op = s.returnWord 0)) ∨
    (s.inReset = false ∧ op = .read ∧ s.windowAccess off size op = s.busRead off size) ∨
    (s.inReset = false ∧ ∃ v, op = .write v ∧ s.windowAccess off size op = s.busWrite off size v) := by
  cases op with
  | read => cases h : s.inReset <;> simp [State.windowAccess, h]
  | write v => cases h : s.inReset <;> simp [State.windowAccess, h]

/-- An access outside the window does nothing, one inside is the access at its offset. -/
theorem hostAccess_cases (a : Access) :
    (inWindow a.addr = false ∧ s.hostAccess a = s) ∨
    (inWindow a.addr = true ∧ s.hostAccess a = s.windowAccess (a.addr - coreBase) a.size a.op) := by
  rw [State.hostAccess]
  cases h : inWindow a.addr <;> simp

theorem sameCore_hostAccess (a : Access) : (s.hostAccess a).sameCore s := by
  obtain ⟨_, h⟩ | ⟨_, h⟩ := hostAccess_cases s a
  · rw [h]; exact sameCore_refl s
  · rw [h]
    obtain ⟨_, h' | h'⟩ | ⟨_, _, h'⟩ | ⟨_, v, _, h'⟩ := windowAccess_cases s (a.addr - coreBase) a.size a.op <;> rw [h']
    · exact sameCore_refl s
    · exact ⟨rfl, rfl, rfl, rfl, rfl, rfl, rfl⟩
    · exact sameCore_busRead s _ _
    · exact sameCore_busWrite s _ _ v

/-- An offset of the window, as the bus address the host uses for it. -/
theorem inWindow_base_add {off : Nat} (h : off < windowSize) : inWindow (coreBase + off) = true := by
  simp only [inWindow, decide_eq_true_eq]; omega

/-- An access at a window offset, through its bus address. -/
theorem hostAccess_base_add {off : Nat} (h : off < windowSize) (size : AccessSize) (op : AccessOp) :
    s.hostAccess { addr := coreBase + off, size := size, op := op } = s.windowAccess off size op := by
  rw [State.hostAccess, if_pos (inWindow_base_add h), Nat.add_sub_cancel_left]

end Sys2Proof.Machine
end

