-- ==== Sys2Proof/Laws/Exec.lean ====
section
/-! SUPPORT. What a command can do, said once over all commands: its rule writes data state or raises an error, and the completion does the rest. -/

namespace Sys2Proof.Machine

open Sys2Proof.Config

/-- `u` differs from `s` in nothing but the data state a command's rule may write. -/
abbrev State.dataFrom (u s : State) : Prop :=
  u = { s with f := u.f, k := u.k, swap := u.swap, round := u.round, lact := u.lact, buf := u.buf, len := u.len }

/-- A rule's result writes data state only. -/
def Result.dataFrom (r : Result) (s : State) : Prop :=
  match r with
  | .ok u => u.dataFrom s
  | .error _ => True

theorem dataFrom_requireLen {s : State} {r : Result} (n : Buf) (h : r.dataFrom s) : (s.requireLen n r).dataFrom s := by
  obtain ⟨_, h'⟩ | ⟨_, h'⟩ := requireLen_cases s n r
  · rwa [h']
  · rw [h']; trivial

/-- One round changes data state only. -/
theorem dataFrom_lstepBody {u s : State} (h : u.dataFrom s) : (lstepBody u).dataFrom s := by
  rw [State.dataFrom, h]; rfl

theorem dataFrom_lstepBody_iterate (n : Nat) {u s : State} (h : u.dataFrom s) : (lstepBody^[n] u).dataFrom s := by
  induction n generalizing u with
  | zero => exact h
  | succ n ih => exact ih (dataFrom_lstepBody h)

theorem dataFrom_lfinBody (fd : FReg) {u s : State} (h : u.dataFrom s) : (lfinBody fd u).dataFrom s := by
  rw [State.dataFrom, h]; rfl

/-- A completion is that of its rule. -/
theorem concludes {s : State} {r : Result} (h : r.dataFrom s) : ∃ r' : Result, s.conclude r = s.conclude r' ∧ r'.dataFrom s :=
  ⟨r, rfl, h⟩

theorem dataFrom_ok {u s : State} (h : u.dataFrom s) : Result.dataFrom (.ok u) s := h

/-- Every command is the completion of a rule that reads the state and writes data state only. -/
theorem exec_is_conclude (i : Instr) (s : State) : ∃ r : Result, exec i s = s.conclude r ∧ r.dataFrom s := by
  cases i with
  | fadd fd fa fb => exact concludes (dataFrom_ok rfl)
  | fsub fd fa fb => exact concludes (dataFrom_ok rfl)
  | fmul fd fa fb => exact concludes (dataFrom_ok rfl)
  | finv fd fa => exact concludes (dataFrom_ok rfl)
  | fcswap fa fb c => exact concludes (dataFrom_ok rfl)
  | decu fd bn => exact concludes (dataFrom_requireLen bn (dataFrom_ok rfl))
  | enc bn fa => exact concludes (dataFrom_ok rfl)
  | clamp bn => exact concludes (dataFrom_requireLen bn (dataFrom_ok rfl))
  | kldr bn => exact concludes (dataFrom_requireLen bn (dataFrom_ok rfl))
  | kenc bn => exact concludes (dataFrom_ok rfl)
  | linit fa => exact concludes (dataFrom_ok rfl)
  | lstep => exact concludes (by split <;> [trivial; exact dataFrom_lstepBody rfl])
  | lfin fd => exact concludes (by split <;> [trivial; exact dataFrom_lfinBody fd rfl])
  | ladder fd fa => exact concludes (dataFrom_ok (dataFrom_lfinBody fd (dataFrom_lstepBody_iterate rounds rfl)))
  | x25519 bo bk bu => exact concludes (dataFrom_requireLen bk (dataFrom_requireLen bu (dataFrom_ok rfl)))
  | basemul bo bk => exact concludes (dataFrom_requireLen bk (dataFrom_ok rfl))

/-- Everything a command can do: succeed with data state written, or fail with a code. -/
theorem exec_cases (i : Instr) (s : State) :
    (∃ u : State, u.dataFrom s ∧ exec i s = .next u.markSuccess) ∨ (∃ e : CmdError, exec i s = .next (s.markError e.code)) := by
  obtain ⟨r, hr, hd⟩ := exec_is_conclude i s
  rw [hr]
  cases r with
  | ok u => exact .inl ⟨u, hd, rfl⟩
  | error e => exact .inr ⟨e, rfl⟩

end Sys2Proof.Machine
end

