-- ==== Sys2Proof/Laws/PerInstr.lean ====
section
/-! SUPPORT. Families of facts about each command as syntax, one lemma per constructor. -/

namespace Sys2Proof.Laws.WordLayout

/-- A command's word holds its operands in the fields of 30_encoding.md R84, and those fields pass the check of R82 and R86. -/
def Statement (i : Instr) : Prop := fieldsOf (encode i) = i.fields ∧ i.wf = true

/-- The fields of a packed word are what was packed (R81, R88). -/
theorem fieldsOf_packWord {op d a b : Nat} (c : Bool) (hop : op < 256) (hd : d < 16) (ha : a < 16) (hb : b < 16) :
    fieldsOf (packWord op d a b c) = ⟨op, d, a, b, c.toNat, 0⟩ := by
  have hc : c.toNat < 2 := Bool.toNat_lt c
  have hsum : op ||| d <<< 8 ||| a <<< 12 ||| b <<< 16 ||| c.toNat <<< 20 =
      op + d * 2 ^ 8 + a * 2 ^ 12 + b * 2 ^ 16 + c.toNat * 2 ^ 20 := by
    rw [Nat.lor_comm op, ← Nat.shiftLeft_add_eq_or_of_lt (by omega : op < 2 ^ 8),
      Nat.lor_comm _ (a <<< 12), ← Nat.shiftLeft_add_eq_or_of_lt (by rw [Nat.shiftLeft_eq]; omega : d <<< 8 + op < 2 ^ 12),
      Nat.lor_comm _ (b <<< 16),
      ← Nat.shiftLeft_add_eq_or_of_lt (by simp only [Nat.shiftLeft_eq]; omega : a <<< 12 + (d <<< 8 + op) < 2 ^ 16),
      Nat.lor_comm _ (c.toNat <<< 20),
      ← Nat.shiftLeft_add_eq_or_of_lt (by simp only [Nat.shiftLeft_eq]; omega : b <<< 16 + (a <<< 12 + (d <<< 8 + op)) < 2 ^ 20)]
    simp only [Nat.shiftLeft_eq]
    omega
  have hw : (packWord op d a b c).toNat = op + d * 2 ^ 8 + a * 2 ^ 12 + b * 2 ^ 16 + c.toNat * 2 ^ 20 := by
    rw [packWord, hsum, BitVec.toNat_ofNat, Nat.mod_eq_of_lt (by omega)]
  simp only [fieldsOf, bitsOf, hw, Nat.shiftRight_eq_div_pow, Fields.mk.injEq]
  refine ⟨?_, ?_, ?_, ?_, ?_, ?_⟩ <;> omega

/-- Fields of a shape whose operands fit are those of a command. -/
theorem wf_of_fits {x : Fields} {sh : Shape} (hop : shapeOf x.op = some sh) (hrsv : x.rsv = 0) (hs : sh.s = true ∨ x.s = 0)
    (hd : sh.d.fits x.d = true) (ha : sh.a.fits x.a = true) (hb : sh.b.fits x.b = true) : x.wf = true := by
  have hnone (k : OperandKind) (v : Nat) (h : k.fits v = true) : ¬ (k = .none ∧ v ≠ 0) := by
    rintro ⟨rfl, hv⟩
    exact hv (by simpa [OperandKind.fits] using h)
  have hs' : ¬ (sh.s = false ∧ x.s ≠ 0) := by
    rintro ⟨h1, h2⟩
    rcases hs with h | h
    · rw [h1] at h; cases h
    · exact h2 h
  simp only [Fields.wf, Fields.illegal, hop, hrsv, ne_eq, not_true_eq_false, if_false, hnone _ _ hd, hnone _ _ ha, hnone _ _ hb,
    or_self, hs', hd, ha, hb, Bool.and_self, if_true, Option.isNone_none]

theorem fits_freg (r : FReg) : OperandKind.fits .freg r.val = true := by simp [OperandKind.fits]
theorem fits_buffer (n : Buf) : OperandKind.fits .buffer n.val = true := by simp [OperandKind.fits]
theorem fits_none : OperandKind.fits .none 0 = true := rfl

theorem fadd (fd fa fb : FReg) : Statement (.fadd fd fa fb) :=
  ⟨fieldsOf_packWord _ (by decide) fd.isLt fa.isLt fb.isLt, wf_of_fits rfl rfl (.inr rfl) (fits_freg fd) (fits_freg fa) (fits_freg fb)⟩
theorem fsub (fd fa fb : FReg) : Statement (.fsub fd fa fb) :=
  ⟨fieldsOf_packWord _ (by decide) fd.isLt fa.isLt fb.isLt, wf_of_fits rfl rfl (.inr rfl) (fits_freg fd) (fits_freg fa) (fits_freg fb)⟩
theorem fmul (fd fa fb : FReg) : Statement (.fmul fd fa fb) :=
  ⟨fieldsOf_packWord _ (by decide) fd.isLt fa.isLt fb.isLt, wf_of_fits rfl rfl (.inr rfl) (fits_freg fd) (fits_freg fa) (fits_freg fb)⟩
theorem finv (fd fa : FReg) : Statement (.finv fd fa) :=
  ⟨fieldsOf_packWord _ (by decide) fd.isLt fa.isLt (by decide), wf_of_fits rfl rfl (.inr rfl) (fits_freg fd) (fits_freg fa) fits_none⟩
theorem fcswap (fa fb : FReg) (c : Bool) : Statement (.fcswap fa fb c) :=
  ⟨fieldsOf_packWord _ (by decide) (by decide) fa.isLt fb.isLt, wf_of_fits rfl rfl (.inl rfl) fits_none (fits_freg fa) (fits_freg fb)⟩
theorem decu (fd : FReg) (bn : Buf) : Statement (.decu fd bn) :=
  ⟨fieldsOf_packWord _ (by decide) fd.isLt (by omega) (by decide), wf_of_fits rfl rfl (.inr rfl) (fits_freg fd) (fits_buffer bn) fits_none⟩
theorem enc (bn : Buf) (fa : FReg) : Statement (.enc bn fa) :=
  ⟨fieldsOf_packWord _ (by decide) (by omega) fa.isLt (by decide), wf_of_fits rfl rfl (.inr rfl) (fits_buffer bn) (fits_freg fa) fits_none⟩
theorem clamp (bn : Buf) : Statement (.clamp bn) :=
  ⟨fieldsOf_packWord _ (by decide) (by decide) (by omega) (by decide), wf_of_fits rfl rfl (.inr rfl) fits_none (fits_buffer bn) fits_none⟩
theorem kldr (bn : Buf) : Statement (.kldr bn) :=
  ⟨fieldsOf_packWord _ (by decide) (by decide) (by omega) (by decide), wf_of_fits rfl rfl (.inr rfl) fits_none (fits_buffer bn) fits_none⟩
theorem kenc (bn : Buf) : Statement (.kenc bn) :=
  ⟨fieldsOf_packWord _ (by decide) (by omega) (by decide) (by decide), wf_of_fits rfl rfl (.inr rfl) (fits_buffer bn) fits_none fits_none⟩
theorem linit (fa : FReg) : Statement (.linit fa) :=
  ⟨fieldsOf_packWord _ (by decide) (by decide) fa.isLt (by decide), wf_of_fits rfl rfl (.inr rfl) fits_none (fits_freg fa) fits_none⟩
theorem lstep : Statement .lstep :=
  ⟨fieldsOf_packWord _ (by decide) (by decide) (by decide) (by decide), wf_of_fits rfl rfl (.inr rfl) fits_none fits_none fits_none⟩
theorem lfin (fd : FReg) : Statement (.lfin fd) :=
  ⟨fieldsOf_packWord _ (by decide) fd.isLt (by decide) (by decide), wf_of_fits rfl rfl (.inr rfl) (fits_freg fd) fits_none fits_none⟩
theorem ladder (fd fa : FReg) : Statement (.ladder fd fa) :=
  ⟨fieldsOf_packWord _ (by decide) fd.isLt fa.isLt (by decide), wf_of_fits rfl rfl (.inr rfl) (fits_freg fd) (fits_freg fa) fits_none⟩
theorem x25519 (bo bk bu : Buf) : Statement (.x25519 bo bk bu) :=
  ⟨fieldsOf_packWord _ (by decide) (by omega) (by omega) (by omega), wf_of_fits rfl rfl (.inr rfl) (fits_buffer bo) (fits_buffer bk) (fits_buffer bu)⟩
theorem basemul (bo bk : Buf) : Statement (.basemul bo bk) :=
  ⟨fieldsOf_packWord _ (by decide) (by omega) (by omega) (by decide), wf_of_fits rfl rfl (.inr rfl) (fits_buffer bo) (fits_buffer bk) fits_none⟩

/-- The family holds of every command. -/
theorem statement_holds (i : Instr) : Statement i := by
  cases i with
  | fadd fd fa fb => exact fadd fd fa fb
  | fsub fd fa fb => exact fsub fd fa fb
  | fmul fd fa fb => exact fmul fd fa fb
  | finv fd fa => exact finv fd fa
  | fcswap fa fb c => exact fcswap fa fb c
  | decu fd bn => exact decu fd bn
  | enc bn fa => exact enc bn fa
  | clamp bn => exact clamp bn
  | kldr bn => exact kldr bn
  | kenc bn => exact kenc bn
  | linit fa => exact linit fa
  | lstep => exact lstep
  | lfin fd => exact lfin fd
  | ladder fd fa => exact ladder fd fa
  | x25519 bo bk bu => exact x25519 bo bk bu
  | basemul bo bk => exact basemul bo bk

end Sys2Proof.Laws.WordLayout
end

