-- ==== Sys2Proof/Laws/Prime.lean ====
section
/-! SUPPORT. p = 2^255 − 19 is prime, by Pratt certificates checked in the kernel. -/

namespace Sys2Proof.Laws

/-- `a^e mod m` for an exponent of at most `n` bits, in a form the kernel runs fast. -/
def powMod (m : Nat) : Nat → Nat → Nat → Nat
  | 0, _, _ => 1 % m
  | n + 1, a, e => if e % 2 = 1 then a * powMod m n (a * a % m) (e / 2) % m else powMod m n (a * a % m) (e / 2)

theorem powMod_zmod (m n a e : Nat) (h : e < 2 ^ n) : ((powMod m n a e : Nat) : ZMod m) = (a : ZMod m) ^ e := by
  induction n generalizing a e with
  | zero => obtain rfl : e = 0 := by omega
            simp [powMod]
  | succ n ih =>
    have hlt : e / 2 < 2 ^ n := by omega
    have hsq : ((powMod m n (a * a % m) (e / 2) : Nat) : ZMod m) = (a : ZMod m) ^ (2 * (e / 2)) := by
      rw [ih _ _ hlt, ZMod.natCast_mod, Nat.cast_mul, ← sq, ← pow_mul]
    rw [powMod]
    split
    · rw [ZMod.natCast_mod, Nat.cast_mul, hsq, ← pow_succ']
      congr 1
      omega
    · rw [hsq]
      congr 1
      omega

/-- A Pratt certificate: `g` is a primitive root of `n`, shown on the prime factors of `n − 1`. -/
theorem prime_of_certificate (n bits g : Nat) (factors : List Nat) (hn : 1 < n) (hbits : n < 2 ^ bits)
    (hprime : ∀ q ∈ factors, q.Prime) (hprod : factors.prod = n - 1) (hone : powMod n bits g (n - 1) = 1)
    (hroot : ∀ q ∈ factors, powMod n bits g ((n - 1) / q) ≠ 1) : n.Prime := by
  have hlt (n' : Nat) (hn' : n' ≤ n - 1) : n' < 2 ^ bits := by omega
  have hbound (k a e : Nat) : powMod n k a e < n := by
    induction k generalizing a e with
    | zero => exact Nat.mod_lt _ (by omega)
    | succ k ih => rw [powMod]; split <;> [exact Nat.mod_lt _ (by omega); exact ih _ _]
  refine lucas_primality n (g : ZMod n) ?_ ?_
  · rw [← powMod_zmod n bits g _ (hlt _ le_rfl), hone, Nat.cast_one]
  · intro q hq hdvd hpow
    have hmem : q ∈ factors := by
      rw [← hprod] at hdvd
      obtain ⟨r, hr, hqr⟩ := (Nat.Prime.prime hq).dvd_prod_iff.mp hdvd
      rwa [(Nat.prime_dvd_prime_iff_eq hq (hprime r hr)).mp hqr]
    refine hroot q hmem ?_
    have hcast : ((powMod n bits g ((n - 1) / q) : Nat) : ZMod n) = ((1 : Nat) : ZMod n) := by
      rw [powMod_zmod n bits g _ (hlt _ (Nat.div_le_self _ _)), hpow, Nat.cast_one]
    exact Nat.ModEq.eq_of_lt_of_lt ((ZMod.natCast_eq_natCast_iff _ _ _).mp hcast) (hbound _ _ _) hn

theorem prime_2773320623 : Nat.Prime 2773320623 :=
  prime_of_certificate _ 32 5 [2, 2437, 569003] (by decide) (by decide)
    (by simp only [List.forall_mem_cons, List.not_mem_nil, false_imp_iff, implies_true, and_true]; norm_num)
    (by decide) (by decide +kernel) (by decide +kernel)

theorem prime_72106336199 : Nat.Prime 72106336199 :=
  prime_of_certificate _ 37 7 [2, 13, 2773320623] (by decide) (by decide)
    (by simp only [List.forall_mem_cons, List.not_mem_nil, false_imp_iff, implies_true, and_true]
        exact ⟨by norm_num, by norm_num, prime_2773320623⟩)
    (by decide) (by decide +kernel) (by decide +kernel)

theorem prime_8574133 : Nat.Prime 8574133 := by norm_num

theorem prime_1919519569386763 : Nat.Prime 1919519569386763 :=
  prime_of_certificate _ 51 2 [2, 3, 7, 19, 47, 47, 127, 8574133] (by decide) (by decide)
    (by simp only [List.forall_mem_cons, List.not_mem_nil, false_imp_iff, implies_true, and_true]; norm_num)
    (by decide) (by decide +kernel) (by decide +kernel)

theorem prime_75445702479781427272750846543864801 : Nat.Prime 75445702479781427272750846543864801 :=
  prime_of_certificate _ 116 7 [2, 2, 2, 2, 2, 3, 3, 5, 5, 75707, 72106336199, 1919519569386763] (by decide) (by decide)
    (by simp only [List.forall_mem_cons, List.not_mem_nil, false_imp_iff, implies_true, and_true, prime_72106336199,
          prime_1919519569386763]
        norm_num)
    (by decide) (by decide +kernel) (by decide +kernel)

theorem prime_31757755568855353 : Nat.Prime 31757755568855353 :=
  prime_of_certificate _ 55 10 [2, 2, 2, 3, 31, 107, 223, 4153, 430751] (by decide) (by decide)
    (by simp only [List.forall_mem_cons, List.not_mem_nil, false_imp_iff, implies_true, and_true]; norm_num)
    (by decide) (by decide +kernel) (by decide +kernel)

/-- The large prime factor of p − 1. -/
theorem prime_factor_of_P_sub_one :
    Nat.Prime 74058212732561358302231226437062788676166966415465897661863160754340907 :=
  prime_of_certificate _ 236 2
    [2, 3, 353, 57467, 132049, 1923133, 31757755568855353, 75445702479781427272750846543864801] (by decide) (by decide)
    (by simp only [List.forall_mem_cons, List.not_mem_nil, false_imp_iff, implies_true, and_true, prime_31757755568855353,
          prime_75445702479781427272750846543864801]
        norm_num)
    (by decide) (by decide +kernel) (by decide +kernel)

theorem prime_P : Nat.Prime Config.P :=
  prime_of_certificate _ 255 2 [2, 2, 3, 65147, 74058212732561358302231226437062788676166966415465897661863160754340907]
    (by decide +kernel) (by decide +kernel)
    (by simp only [List.forall_mem_cons, List.not_mem_nil, false_imp_iff, implies_true, and_true, prime_factor_of_P_sub_one]
        norm_num)
    (by decide +kernel) (by decide +kernel) (by decide +kernel)

end Sys2Proof.Laws
end

