-- ==== Sys2Proof/Laws/Step.lean ====
section
/-! SUPPORT. What a step can do, said once: one of its agents' events. -/

namespace Sys2Proof.Machine

open Sys2Proof.Config

/-- A step by the event it takes. -/
theorem step_eq_runEvent (s : State) : step s = runEvent s.nextEvent s.popEvent := rfl

theorem complete_of_ok {s : State} {i : Instr} (h : decode s.cur = .ok i) : complete s = exec i s := by
  rw [complete, h]

theorem complete_of_error {s : State} {r : Illegal} (h : decode s.cur = .error r) :
    complete s = .next (s.markError CmdError.illegalCommand.code) := by
  rw [complete, h]; rfl

/-- Everything a completion can do. -/
theorem complete_cases (s : State) :
    (∃ i, decode s.cur = .ok i ∧ complete s = exec i s) ∨
    (∃ r, decode s.cur = .error r ∧ complete s = .next (s.markError CmdError.illegalCommand.code)) := by
  cases h : decode s.cur with
  | ok i => exact .inl ⟨i, rfl, complete_of_ok h⟩
  | error r => exact .inr ⟨r, rfl, complete_of_error h⟩

/-- Every completion answers a next state: data written with success, or an error code. -/
theorem complete_next (s : State) :
    (∃ u : State, u.dataFrom s ∧ complete s = .next u.markSuccess) ∨ (∃ e : CmdError, complete s = .next (s.markError e.code)) := by
  obtain ⟨i, _, h⟩ | ⟨r, _, h⟩ := complete_cases s
  · rw [h]; exact exec_cases i s
  · exact .inr ⟨_, h⟩

/-- Everything a step can do. -/
theorem step_cases (s : State) :
    (∃ a, s.nextEvent = .host a ∧ step s = .next (s.popEvent.hostAccess a)) ∨
    (s.nextEvent = .coreTurn ∧ s.busy = true ∧ step s = complete s.popEvent) ∨
    (s.nextEvent = .coreTurn ∧ s.busy = false ∧ step s = .next s.popEvent) ∨
    (s.nextEvent = .reset ∧ step s = .next s.popEvent.resetCore) ∨
    (s.nextEvent = .assertReset ∧ step s = .next { s.popEvent.resetCore with inReset := true }) ∨
    (s.nextEvent = .releaseReset ∧ step s = .next { s.popEvent with inReset := false }) := by
  rw [step_eq_runEvent]
  cases h : s.nextEvent with
  | host a => exact .inl ⟨a, rfl, rfl⟩
  | coreTurn =>
    cases hb : s.busy with
    | true => exact .inr (.inl ⟨rfl, rfl, by simp [runEvent, coreTurn, hb]⟩)
    | false => exact .inr (.inr (.inl ⟨rfl, rfl, by simp [runEvent, coreTurn, hb]⟩))
  | reset => exact .inr (.inr (.inr (.inl ⟨rfl, rfl⟩)))
  | assertReset => exact .inr (.inr (.inr (.inr (.inl ⟨rfl, rfl⟩))))
  | releaseReset => exact .inr (.inr (.inr (.inr (.inr ⟨rfl, rfl⟩))))

/-- The step after a word is placed is the completion of that word. -/
theorem step_withFetchWord (s : State) (nbits w : Nat) :
    step (s.withFetchWord nbits w) = complete (s.withFetchWord nbits w).popEvent := rfl

end Sys2Proof.Machine
end

