-- ==== Sys2Proof/Tests/Slice0.lean ====
section
/-! SUPPORT. Tests: words and values from the spec's own tables and examples (named at each), and a witness for each statement with hypotheses. -/

namespace Sys2Proof.Tests

open Sys2Proof.Config Sys2Proof.Machine

-- One theorem at a time: each one that the kernel evaluates holds a thread of the compiler until it is checked.
set_option Elab.async false

/-! ## Helpers -/

/-- The state a next-state outcome carries. -/
def after (o : Host.Outcome State Fault Refusal) : State :=
  match o with
  | .next t => t
  | .fault _ => State.reset
  | .refused _ => State.reset

/-- One step with a command word placed. -/
def runWord (w : Nat) (s : State) : State := after (step (s.withFetchWord 32 w))

/-- A host write of a word, a host read of a word, at a window offset. -/
def wr (off : Nat) (v : Word) : Event := .host { addr := coreBase + off, size := .word, op := .write v }
def rd (off : Nat) : Event := .host { addr := coreBase + off, size := .word, op := .read }

/-- `s` with one event to come. -/
def coming (e : Event) (s : State) : State := { s with sched := [e] }

/-- The word a legal 32-bit read returns. -/
def readWord (off : Nat) (s : State) : Option Word := (s.busRead off .word).rdata

/-- Reset, with F0 = a and F1 = b. -/
def regs (a b : Nat) : State := (State.reset.setF 0 a).setF 1 b

/-- `s` with buffer n holding LE32(x), length 32. -/
def buffer (n : Buf) (x : Nat) (s : State) : State := s.setBuf n (le32 x)

/-- A ladder open on u with ROUND = t. -/
def ladderAt (u : Nat) (t : BitVec 9) (k : Scalar) : State := ((linitBody 0 (regs u 0)).setLadder false t true).setK k

/-- The words of buffer n, word 0 first. -/
def words (n : Buf) (s : State) : List Word := (List.finRange 8).map (s.bufWord n)

/-! ## WellFormed: an ill-formed term for each check (30_encoding.md R86) -/

theorem smoke_opcode : Fields.illegal ⟨0x06, 0, 0, 0, 0, 0⟩ = some .opcode := by decide
theorem smoke_reserved : Fields.illegal ⟨0x30, 0, 0, 0, 0, 0x400⟩ = some .reserved := by decide
theorem smoke_unused : Fields.illegal ⟨0x21, 1, 0, 0, 0, 0⟩ = some .unused := by decide
theorem smoke_immediate : Fields.illegal ⟨0x01, 0, 0, 0, 1, 0⟩ = some .immediate := by decide
theorem smoke_bufferIndex : Fields.illegal ⟨0x10, 0, 4, 0, 0, 0⟩ = some .bufferIndex := by decide
theorem smoke_refused : Fields.wf ⟨0x06, 0, 0, 0, 0, 0⟩ = false ∧ Fields.wf ⟨0x14, 12, 0, 0, 0, 0⟩ = false := by decide
theorem smoke_wellFormed : Fields.wf ⟨0x05, 0, 15, 15, 1, 0⟩ = true ∧ Fields.wf ⟨0x30, 3, 3, 3, 0, 0⟩ = true := by decide

/-! ## Decoding: words bit by bit from R81 and R84 (RSV S B A D OP), and the table of 95_test_vectors.md L2.0 -/

theorem decode_fadd : decode 0b000000000000_0001_0000_0010_00000001#32 = .ok (.fadd 2 0 1) := by decide
theorem decode_fsub : decode 0b000000000000_0001_0000_0010_00000010#32 = .ok (.fsub 2 0 1) := by decide
theorem decode_fmul : decode 0b000000000000_1111_1111_1111_00000011#32 = .ok (.fmul 15 15 15) := by decide
theorem decode_finv : decode 0b000000000000_0000_0000_0001_00000100#32 = .ok (.finv 1 0) := by decide
theorem decode_fcswap : decode 0b00000000000_1_0001_0000_0000_00000101#32 = .ok (.fcswap 0 1 true) := by decide
theorem decode_decu : decode 0b000000000000_0000_0000_0100_00010000#32 = .ok (.decu 4 0) := by decide
theorem decode_enc : decode 0b000000000000_0000_0000_0001_00010001#32 = .ok (.enc 1 0) := by decide
theorem decode_clamp : decode 0b000000000000_0000_0001_0000_00010010#32 = .ok (.clamp 1) := by decide
theorem decode_kldr : decode 0b000000000000_0000_0011_0000_00010011#32 = .ok (.kldr 3) := by decide
theorem decode_kenc : decode 0b000000000000_0000_0000_0010_00010100#32 = .ok (.kenc 2) := by decide
theorem decode_linit : decode 0b000000000000_0000_1111_0000_00100000#32 = .ok (.linit 15) := by decide
theorem decode_lstep : decode 0b000000000000_0000_0000_0000_00100001#32 = .ok .lstep := by decide
theorem decode_lfin : decode 0b000000000000_0000_0000_0001_00100010#32 = .ok (.lfin 1) := by decide
theorem decode_ladder : decode 0b000000000000_0000_1111_0000_00100011#32 = .ok (.ladder 0 15) := by decide
theorem decode_x25519 : decode 0b000000000000_0011_0000_0000_00110000#32 = .ok (.x25519 0 0 3) := by decide
theorem decode_basemul : decode 0b000000000000_0000_0000_0001_00110001#32 = .ok (.basemul 1 0) := by decide

theorem decode_illegal_opcode :
    [0x00000000#32, 0x00000006#32, 0x00000015#32, 0x00000024#32, 0x00000032#32, 0x000000FF#32, 0xFFFFFFFF#32].all
      (fun w => decide (decode w = .error .opcode)) = true := by decide
theorem decode_illegal_reserved :
    [0x80000030#32, 0x00200005#32, 0x00FFFF03#32].all (fun w => decide (decode w = .error .reserved)) = true := by decide
theorem decode_illegal_unused :
    [0x00000121#32, 0x00001112#32, 0x00001014#32].all (fun w => decide (decode w = .error .unused)) = true := by decide
theorem decode_illegal_immediate : decode 0x00100001#32 = .error .immediate := by decide
theorem decode_illegal_bufferIndex :
    [0x00004010#32, 0x00000411#32, 0x00000C14#32, 0x00040230#32, 0x00080230#32].all
      (fun w => decide (decode w = .error .bufferIndex)) = true := by decide

theorem decodeTableWord_reads : decodeTableWord 32 0x00010230 = some (.x25519 2 0 1) ∧ decodeTableWord 32 0 = none := by decide

/-- R88's two examples. -/
theorem asm_fmul : asmText (.fmul 2 0 1) = "FMUL f2, f0, f1" ∧ encode (.fmul 2 0 1) = 0x00010203#32 := by decide
theorem asm_x25519 : asmText (.x25519 2 0 1) = "X25519 b2, b0, b1" ∧ encode (.x25519 2 0 1) = 0x00010230#32 := by decide
/-- R89's pseudo-instructions. -/
theorem pseudo_words : encode (.fsqr 1 2) = 0x00022103#32 ∧ encode (.fdbl 1 2) = 0x00022101#32 ∧
    encode (.fswap 0 1) = 0x00110005#32 ∧ encode .fnop = 0x00000005#32 := by decide

/-! ## One step of each command: 95_test_vectors.md L2.1 to L2.4 and the examples of the command rules -/

theorem test_fadd_wraps : (runWord 0x00010201 (regs (P - 1) 1)).getF 2 = 0 := by decide +kernel
theorem test_fadd_same : (runWord 0x00000001 (regs 9 0)).getF 0 = 18 := by decide +kernel
theorem test_fsub_borrows : (runWord 0x00010202 (regs 3 5)).getF 2 = P - 2 := by decide +kernel
theorem test_fmul_half :
    (runWord 0x00010203 (regs 2 0x3ffffffffffffffffffffffffffffffffffffffffffffffffffffffffffffff7)).getF 2 = 1 := by decide +kernel
theorem test_fmul_square : (runWord 0x00000203 (regs (2 ^ 128) 0)).getF 2 = 38 := by decide +kernel
theorem test_finv_9 :
    (runWord 0x00000104 (regs 9 0)).getF 1 = 0x471c71c71c71c71c71c71c71c71c71c71c71c71c71c71c71c71c71c71c71c712 := by decide +kernel
theorem test_finv_0 : (runWord 0x00000104 (regs 0 1)).getF 1 = 0 := by decide +kernel
theorem test_fcswap_one : ((runWord 0x00110005 (regs 5 7)).getF 0, (runWord 0x00110005 (regs 5 7)).getF 1) = (7, 5) := by decide +kernel
theorem test_fcswap_zero : ((runWord 0x00010005 (regs 5 7)).getF 0, (runWord 0x00010005 (regs 5 7)).getF 1) = (5, 7) := by decide +kernel
theorem test_decu_allOnes : (runWord 0x00000010 (buffer 0 (2 ^ 256 - 1) State.reset)).getF 0 = 18 := by decide +kernel
theorem test_decu_length : runWord 0x00000010 ((buffer 0 9 (regs 5 0)).putLen 0 31) =
    ((((buffer 0 9 (regs 5 0)).putLen 0 31).placeCommand 0x10).popEvent).failedWith 1 := by decide +kernel
theorem test_enc_p_minus_1 : ((runWord 0x00000111 (regs (P - 1) 0)).getBuf 1, (runWord 0x00000111 (regs (P - 1) 0)).getLen 1) =
    ((Vector.replicate 32 0xFF#8).set 0 0xEC#8 |>.set 31 0x7F#8, 32#6) := by decide +kernel
theorem test_clamp_zeros : (runWord 0x00000012 (buffer 0 0 State.reset)).k = BitVec.ofNat 256 (2 ^ 254) := by decide +kernel
theorem test_clamp_ones : (runWord 0x00000012 (buffer 0 (2 ^ 256 - 1) State.reset)).k = BitVec.ofNat 256 (2 ^ 255 - 8) := by
  decide +kernel
theorem test_kldr_ones : (runWord 0x00000013 (buffer 0 (2 ^ 256 - 1) State.reset)).k = BitVec.allOnes 256 := by decide +kernel
theorem test_kenc_ones : (runWord 0x00000114 (State.reset.setK (BitVec.allOnes 256))).getBuf 1 = Vector.replicate 32 0xFF#8 := by
  decide +kernel
theorem test_linit : (runWord 0x00000020 (regs 9 0)).getPairs = ⟨1, 0, 9, 1⟩ ∧ (runWord 0x00000020 (regs 9 0)).getF 11 = 9 ∧
    readWord 0x00C (runWord 0x00000020 (regs 9 0)) = some 0x000200FF#32 := by decide +kernel
theorem test_linit_from_z3 : (runWord 0x0000F020 (State.reset.setF 15 7)).getPairs = ⟨1, 0, 7, 1⟩ := by decide +kernel
theorem test_lstep_first : (runWord 0x00000021 (ladderAt 9 255 (BitVec.ofNat 256 (2 ^ 254)))).getPairs =
      ⟨0x1900, 0x9660720, 0x144, 0x24⟩ ∧
    readWord 0x00C (runWord 0x00000021 (ladderAt 9 255 (BitVec.ofNat 256 (2 ^ 254)))) = some 0x000300FE#32 := by decide +kernel
theorem test_lstep_sequence : readWord 0x004 (runWord 0x00000021 (ladderAt 9 0 0)) = some 0x00000036#32 := by decide +kernel
/-- R164: with SWAP = 1 the second pair is the result, and fd = X2 ends with it. -/
theorem test_lfin_alias : ((runWord 0x00000C22 ((ladderAt 9 0 0).setLadder true 0 true)).getF 12,
    (runWord 0x00000C22 ((ladderAt 9 0 0).setLadder true 0 true)).getF 14) = (9, 1) := by decide +kernel
theorem test_lfin_early : readWord 0x004 (runWord 0x00000022 (ladderAt 9 1 0)) = some 0x00000036#32 := by decide +kernel
theorem test_ladder_k4 : (runWord 0x00000123 ((regs 9 0).setK 4)).getF 1 =
    0x79ce98b7e0689d7de7d1d074a15b315ffe1805dfcd5d2a230fee85e4550013ef := by decide +kernel
theorem test_ladder_k5 : (runWord 0x00000123 ((regs 9 0).setK 5)).getF 1 =
      0x41b6ec3c50ee7af203c0026e5e079e7fa8cbc9bc581d49cb0d537d5778497c87 ∧
    readWord 0x00C (runWord 0x00000123 ((regs 9 0).setK 5)) = some 0x00010000#32 := by decide +kernel

/-- V1 of program P2: the scalar in B0, u in B1. -/
def v1 : State :=
  buffer 0 0xC49A44BA44226A50185AFCC10A4C1462DD5E46824B15163B9D7C52F06BE346A5
    (buffer 1 0x4C1CABD0A603A9103B35B326EC2466727C5FB124A4C19435DB3030586768DBE6 State.reset)

theorem test_x25519_v1 : words 2 (runWord 0x00010230 v1) =
    [0x3755DAC3#32, 0x90C6E99D#32, 0x4DEA948E#32, 0x4F088DF2#32, 0x03CFEC32#32, 0xF7711C49#32, 0x5507B454#32, 0x5285A277#32] := by
  decide +kernel
theorem test_x25519_length : readWord 0x004 (runWord 0x00010230 (v1.putLen 1 33)) = some 0x00000016#32 := by decide +kernel
/-- Alice's public key (program P4). -/
theorem test_basemul_alice :
    words 2 (runWord 0x00000231 (buffer 0 0x2A2CB91DA5FB77B12A99C0EB872F4CDF4566B25172C1163C7DA518730A6D0777 State.reset)) =
      [0x09F02085#32, 0x54A73089#32, 0xDC7D8B74#32, 0x5AF73EB4#32, 0x0D3ABF0D#32, 0xF41A3826#32, 0x8EA9A4EB#32, 0x6A4E9BAA#32] := by
  decide +kernel
theorem test_basemul_length : readWord 0x004 (runWord 0x00000131 ((buffer 0 0 State.reset).putLen 0 31)) = some 0x00000016#32 := by
  decide +kernel

/-! ## Errors, handshake and bus: 95_test_vectors.md L2.5 -/

theorem test_illegal : readWord 0x004 (runWord 0x00000121 State.reset) = some 0x00000026#32 ∧
    readWord 0x000 (runWord 0x00000121 State.reset) = some 0x00000121#32 := by decide
theorem test_busy_status : readWord 0x004 (State.reset.busWrite 0x000 .word 0x21#32) = some 0x00000001#32 := by decide
theorem test_cmd_lost : readWord 0x004 ((State.reset.accept 0x21#32).busWrite 0x000 .word 0x12#32) = some 0x00000101#32 ∧
    ((State.reset.accept 0x21#32).busWrite 0x000 .word 0x12#32).cur = 0x21#32 := by decide
theorem test_blocked_read : readWord 0x100 ((buffer 0 7 State.reset).accept 0x21#32) = some 0#32 ∧
    (((buffer 0 7 State.reset).accept 0x21#32).busRead 0x100 .word).accerr = true := by decide +kernel
theorem test_blocked_write : ((State.reset.accept 0x21#32).busWrite 0x010 .word 32#32).getLen 0 = 0#6 ∧
    ((State.reset.accept 0x21#32).busWrite 0x010 .word 32#32).accerr = true := by decide
theorem test_reserved : readWord 0x020 State.reset = some 0#32 ∧ (State.reset.busRead 0x020 .word).accerr = true ∧
    State.reset.busWrite 0x1FC .word 5#32 = State.reset.raiseAccErr := by decide
theorem test_narrow : (State.reset.busRead 0x004 .byte).accerr = true ∧ (State.reset.busRead 0x006 .word).accerr = true := by decide
theorem test_lstate_write : State.reset.busWrite 0x00C .word 0xFFFFFFFF#32 = State.reset := by decide
theorem test_ctrl_write : readWord 0x008 (State.reset.busWrite 0x008 .word 0xFFFFFFFF#32) = some 1#32 := by decide
theorem test_len_write : readWord 0x010 (State.reset.busWrite 0x010 .word 0xFFFFFFE0#32) = some 0x20#32 := by decide
/-- Program P6: STATUS 0x236, a write of 0x302 leaves ERR and ERRCODE. -/
theorem test_clear_status : ((State.reset.markError 3).raiseAccErr).statusWord = 0x236#32 ∧
    (((State.reset.markError 3).raiseAccErr).busWrite 0x004 .word 0x302#32).statusWord = 0x034#32 := by decide
theorem test_word_lanes : (State.reset.busWrite 0x124 .word 0x0A0B0C0D#32).getBuf 1 =
    ((((Vector.replicate 32 0#8).set 4 0x0D#8).set 5 0x0C#8).set 6 0x0B#8).set 7 0x0A#8 := by decide
theorem test_irq : ((State.reset.setCtrl 1#32).markSuccess).irq = true ∧ State.reset.markSuccess.irq = false := by decide

/-- R60, program P6: a CMD write that meets a command in flight is lost; the same write after the completion is accepted. Both
orders are runs of the model: the events to come decide. -/
theorem test_race_before :
    step { State.reset.accept 0x05#32 with sched := [wr 0x000 0x21#32, .coreTurn] } =
      .next { State.reset.accept 0x05#32 with cmdlost := true, sched := [.coreTurn] } :=
  congrArg Host.Outcome.next ((hostAccess_base_add _ (off := 0x000) (by decide) .word (.write 0x21#32)).trans rfl)
theorem test_race_after :
    step { State.reset.accept 0x05#32 with sched := [.coreTurn, wr 0x000 0x21#32] } =
      .next { (State.reset.accept 0x05#32).markSuccess with sched := [wr 0x000 0x21#32] } := by rfl
/-- R240: a reset in flight abandons the command. -/
theorem test_reset_in_flight : step (coming .reset (State.reset.accept 0x31#32)) = .next State.reset := by rfl
/-- R226: an idle core waits. -/
theorem test_idle : step State.reset = .next State.reset := by rfl

/-! ## Witnesses: states and operands that meet the hypotheses of each statement with hypotheses, at the ends of their ranges -/

theorem witness_DecodeOfEncode : (Instr.fadd 15 15 15).wf = true ∧ (Instr.x25519 3 3 3).wf = true ∧ Instr.lstep.wf = true := by decide
theorem witness_EncodeOfDecode : decode 0x000FFF03#32 = .ok (.fmul 15 15 15) ∧ decode 0x00000005#32 = .ok .fnop := by decide
theorem witness_reduced : State.reset.reduced ∧ (regs (P - 1) (P - 1)).reduced := by decide +kernel
/-- Both ranges of FADD's and of FSUB's result. -/
theorem witness_FaddFsub : (regs 0 (P - 1)).getF 0 + (regs 0 (P - 1)).getF 1 < P ∧
    ¬ (regs 1 (P - 1)).getF 0 + (regs 1 (P - 1)).getF 1 < P ∧ (regs 5 5).getF 1 ≤ (regs 5 5).getF 0 ∧
    ¬ (regs 4 5).getF 1 ≤ (regs 4 5).getF 0 := by decide +kernel
theorem witness_Finv : (regs 1 0).reduced ∧ (regs 1 0).getF 0 ≠ 0 ∧ (regs (P - 1) 0).reduced ∧ (regs (P - 1) 0).getF 0 ≠ 0 := by
  decide +kernel
theorem witness_FieldOperations : 1 < P ∧ (1 : Nat) ≠ 0 ∧ P - 1 < P ∧ P - 1 ≠ 0 := by decide +kernel
theorem witness_MaskSwap : (2 ^ 256 - 1 < 2 ^ 256) ∧ P - 1 < P ∧ 0 < P := by decide +kernel
/-- DECU, CLAMP, KLDR and BASEMUL: a length of 32, and the lengths next to it. -/
theorem witness_lengths : (buffer 0 9 State.reset).getLen 0 = 32#6 ∧ (State.reset.putLen 0 31).getLen 0 ≠ 32#6 ∧
    (State.reset.putLen 0 33).getLen 0 ≠ 32#6 ∧ (State.reset.putLen 3 63).getLen 3 ≠ 32#6 ∧ State.reset.getLen 3 ≠ 32#6 := by
  decide +kernel
/-- The encodings of p and 2^255 − 1 are in the range of the second clause, that of p − 1 is not. -/
theorem witness_DecodeU : P ≤ leSum (le32 P) % 2 ^ 255 ∧ P ≤ leSum (le32 (2 ^ 256 - 1)) % 2 ^ 255 ∧
    leSum (le32 (P - 1)) % 2 ^ 255 < P := by decide +kernel
theorem witness_LittleEndian : 2 ^ 256 - 1 < 2 ^ 256 := by decide
theorem witness_CodecRoundTrip : (buffer 3 (P - 1) State.reset).getLen 3 = 32#6 ∧
    leSum ((buffer 3 (P - 1) State.reset).getBuf 3) < P := by decide +kernel
/-- LSTEP: no ladder, no round left, the last round and the first round. -/
theorem witness_Lstep : State.reset.lact = false ∧ (ladderAt 9 0 0).round = 0#9 ∧
    ((ladderAt 9 1 0).reduced ∧ (ladderAt 9 1 0).lact = true ∧ (ladderAt 9 1 0).round ≠ 0#9) ∧
    ((ladderAt 9 255 0).reduced ∧ (ladderAt 9 255 0).lact = true ∧ (ladderAt 9 255 0).round ≠ 0#9) := by decide +kernel
/-- LFIN: no ladder, a round left, and an open ladder with none. -/
theorem witness_Lfin : State.reset.lact = false ∧ (ladderAt 9 1 0).round ≠ 0#9 ∧
    ((ladderAt 9 0 0).reduced ∧ (ladderAt 9 0 0).lact = true ∧ (ladderAt 9 0 0).round = 0#9) := by decide +kernel
theorem witness_LadderRounds : (0 ≤ 255 ∧ 0 < 255) ∧ (254 ≤ 255 ∧ 254 < 255) ∧ (255 ≤ 255 ∧ 255 = 255) := by decide
theorem witness_LadderBit255 : (∀ t, t < 255 → (0#256).getLsbD t = (BitVec.ofNat 256 (2 ^ 255)).getLsbD t) ∧
    0#256 ≠ BitVec.ofNat 256 (2 ^ 255) := by decide +kernel
theorem witness_LadderDegenerate : P - 1 < P ∧ (∀ t, t < 255 → (BitVec.ofNat 256 (2 ^ 255)).getLsbD t = false) := by decide +kernel
theorem witness_X25519Lengths : (v1.getLen 0 = 32#6 ∧ v1.getLen 1 = 32#6) ∧ (v1.putLen 0 31).getLen 0 ≠ 32#6 ∧
    (v1.putLen 1 33).getLen 1 ≠ 32#6 := by decide +kernel
/-- Two states that differ in F and K and hold the same inputs; both commands answer on both. -/
theorem witness_DependsOnInputs : v1.getBuf 0 = ((v1.setF 0 1).setK 1).getBuf 0 ∧ v1.getLen 0 = ((v1.setF 0 1).setK 1).getLen 0 ∧
    v1.getBuf 1 = ((v1.setF 0 1).setK 1).getBuf 1 ∧ v1.getLen 1 = ((v1.setF 0 1).setK 1).getLen 1 ∧ v1 ≠ (v1.setF 0 1).setK 1 := by
  decide +kernel
theorem witness_DependsOnInputs_exec (s : State) (bo bk bu : Buf) :
    (∃ t, exec (.basemul bo bk) s = .next t) ∧ (∃ t, exec (.x25519 bo bk bu) s = .next t) := by
  constructor
  · obtain ⟨u, _, h⟩ | ⟨e, h⟩ := exec_cases (.basemul bo bk) s <;> exact ⟨_, h⟩
  · obtain ⟨u, _, h⟩ | ⟨e, h⟩ := exec_cases (.x25519 bo bk bu) s <;> exact ⟨_, h⟩
theorem witness_LowOrder : (buffer 0 0 State.reset).getLen 0 = 32#6 ∧
    [0, 1, P - 1, P, 2 ^ 255 + 1].all (fun u => decide (leSum (le32 u) % 2 ^ 255 % P ∈ [0, 1, P - 1])) = true := by decide +kernel
theorem witness_Stepwise : v1.getLen 0 = 32#6 ∧ v1.getLen 1 = 32#6 ∧ leSum ((buffer 1 9 v1).getBuf 1) = 9 ∧
    (buffer 1 9 v1).getLen 0 = 32#6 ∧ (buffer 1 9 v1).getLen 1 = 32#6 := by decide +kernel
theorem witness_OutputEncodings : (regs (P - 1) 0).reduced ∧ (after (exec (.enc 0 0) (regs (P - 1) 0))).err = false ∧
    v1.reduced ∧ (after (exec (.x25519 2 0 1) v1)).err = false ∧ (after (exec (.basemul 2 0) v1)).err = false := by decide +kernel
theorem witness_IllegalWord : decode (State.reset.accept 0x00000000#32).cur = .error .opcode ∧
    decode (State.reset.accept 0xFFFFFFFF#32).cur = .error .opcode := by decide
theorem witness_Irq : (0x2#32).getLsbD 1 = true ∧ State.reset.busy = false ∧ (0xFFFFFFFE#32).getLsbD 0 = false ∧
    (State.reset.accept 0#32).busy = true ∧ State.reset.done = false := by decide
theorem witness_StepRuns : (State.reset.accept 0x000FFF03#32).nextEvent = .coreTurn ∧ (State.reset.accept 0x000FFF03#32).busy = true ∧
    decode (State.reset.accept 0x000FFF03#32).cur = .ok (.fmul 15 15 15) := by decide
theorem reset_inv : State.reset.Inv :=
  { reduced := by decide +kernel, status := by decide, ladder := by decide, inFlight := by decide, resetHeld := fun h => nomatch h }
theorem witness_StepKeepsInvariant : State.reset.Inv ∧ step State.reset = .next State.reset := ⟨reset_inv, rfl⟩
theorem witness_ResetValues : inputBuffers (.x25519 2 0 1) ≠ [] ∧ inputBuffers (.decu 0 3) ≠ [] := by decide
theorem witness_Reset : (coming .reset (State.reset.accept 0#32)).nextEvent = .reset ∧ (coming .assertReset State.reset).nextEvent = .assertReset ∧
    (coming (rd 0x004) { State.reset with inReset := true }).inReset = true ∧
    (coming (rd 0x004) { State.reset with inReset := true }).nextEvent = .host { addr := coreBase + 0x004, size := .word, op := .read } ∧
    inWindow (coreBase + 0x004) = true :=
  ⟨rfl, rfl, rfl, rfl, inWindow_base_add (by decide)⟩
/-- The last clause's two cases: a write, and an access just above the window. -/
theorem witness_Reset_unread : (coming (wr 0x000 5) { State.reset with inReset := true }).nextEvent =
      .host { addr := coreBase + 0x000, size := .word, op := .write 5 } ∧ (.write 5 : AccessOp) ≠ .read ∧
    inWindow (coreBase + 0x200) = false := by
  refine ⟨rfl, by decide, ?_⟩
  rw [inWindow, decide_eq_false_iff_not, windowSize]
  omega
theorem witness_Completes : (coming (rd 0x004) (State.reset.accept 0x21#32)).busy = true ∧
    ∀ e ∈ (coming (rd 0x004) (State.reset.accept 0x21#32)).sched, e ≠ .reset ∧ e ≠ .assertReset := by
  simp [coming, rd, State.accept, State.markAccepted, State.reset]
/-- Two states that differ in F, K, SWAP and a buffer and agree on the word in flight, LEN, ROUND and LACT. -/
theorem witness_Secrets : (v1.accept 0x00010230#32).cur = ((((v1.setF 0 1).setK 1).putBuf 0 (le32 7)).accept 0x00010230#32).cur ∧
    v1.len = (((v1.setF 0 1).setK 1).putBuf 0 (le32 7)).len ∧ v1.round = (((v1.setF 0 1).setK 1).putBuf 0 (le32 7)).round ∧
    v1.lact = (((v1.setF 0 1).setK 1).putBuf 0 (le32 7)).lact ∧ v1.f ≠ (v1.setF 0 1).f ∧ v1.getBuf 0 ≠ le32 7 := by
  decide +kernel
theorem witness_HostAccess : (coming (rd 0x1FF) State.reset).nextEvent = .host { addr := coreBase + 0x1FF, size := .word, op := .read } ∧
    (coming (wr 0 5) State.reset).nextEvent = .host { addr := coreBase + 0, size := .word, op := .write 5 } ∧
    State.reset.inReset = false ∧ 0x1FF < 0x200 ∧ coreBase + 0x200 ≤ coreBase + 0x200 := by
  refine ⟨rfl, rfl, rfl, by decide, Nat.le_refl _⟩
theorem witness_IllegalAccess : (AccessSize.byte ≠ .word ∧ 0x000 < 0x200) ∧ (0x001 % 4 ≠ 0 ∧ 0x001 < 0x200) ∧
    (0x020 ≤ 0x020 ∧ 0x020 < 0x100) ∧ (0x020 ≤ 0x0FC ∧ 0x0FC < 0x100) ∧ (0x180 ≤ 0x180) ∧ (0x180 ≤ 0x1FF ∧ 0x1FF < 0x200) := by decide
theorem witness_BufferWords : State.reset.busy = false ∧ ((0 : Buf), (7 : Fin 8)) ≠ (0, 0) ∧ 2 ^ 256 - 1 < 2 ^ 256 := by decide
theorem witness_CmdWrite : (coming (wr 0x000 0x21#32) State.reset).hostWritesNext 0x000 0x21#32 ∧ State.reset.inReset = false ∧
    State.reset.busy = false ∧ (coming (wr 0x000 0x21#32) (State.reset.accept 5#32)).hostWritesNext 0x000 0x21#32 ∧
    (State.reset.accept 5#32).busy = true ∧ (State.reset.accept 5#32).inReset = false := ⟨rfl, rfl, rfl, rfl, rfl, rfl⟩
theorem witness_InFlight : (State.reset.accept 0x23#32).busy = true := by decide
/-- Steps that are no reset and change K, F, the ladder fields, and a buffer by a command. -/
theorem witness_DataState : ¬ ((buffer 0 4 State.reset).accept 0x13#32).resetNext ∧
    (after (step ((buffer 0 4 State.reset).accept 0x13#32))).k ≠ 0 ∧
    (after (step ((regs 2 3).accept 0x00010201#32))).f ≠ (regs 2 3).f ∧
    (after (step (State.reset.accept 0x20#32))).lact ≠ State.reset.lact ∧
    (after (step ((regs 9 0).accept 0x111#32))).buf ≠ (regs 9 0).buf := by decide +kernel
theorem witness_DataState_step : step ((regs 2 3).accept 0x00010201#32) = .next (after (step ((regs 2 3).accept 0x00010201#32))) := rfl
/-- A host write that changes a buffer word, the last of its range, and one that changes a length. -/
theorem witness_DataState_hostWrite :
    (coming (wr 0x17C 5) State.reset).hostWritesNext (wordOffset 3 7) 5 ∧ (State.reset.busWrite 0x17C .word 5#32).buf ≠ State.reset.buf ∧
    (coming (wr 0x01C 32) State.reset).hostWritesNext (lenOffset 3) 32 ∧ (State.reset.busWrite 0x01C .word 32#32).len ≠ State.reset.len ∧
    State.reset.busy = false ∧ State.reset.inReset = false :=
  ⟨rfl, by decide, rfl, by decide, rfl, rfl⟩
/-- irq is 0 and rises: at a completion with IE = 1, and at a write of IE = 1 while DONE = 1. -/
theorem witness_IrqRises :
    ((State.reset.setCtrl 1#32).accept 0x05#32).irq = false ∧ (after (step ((State.reset.setCtrl 1#32).accept 0x05#32))).irq = true ∧
    State.reset.markSuccess.irq = false ∧ State.reset.markSuccess.inReset = false ∧
    (coming (wr 0x008 1) State.reset.markSuccess).hostWritesNext 0x008 1 ∧ (State.reset.markSuccess.busWrite 0x008 .word 1#32).irq = true :=
  ⟨rfl, rfl, rfl, rfl, rfl, rfl⟩
theorem witness_Sticky : State.reset.raiseCmdLost.cmdlost = true ∧ State.reset.raiseAccErr.accerr = true ∧
    (State.reset.raiseCmdLost.busWrite 0x004 .word 0x100#32).cmdlost = false ∧
    (State.reset.raiseAccErr.busWrite 0x004 .word 0x200#32).accerr = false ∧ ¬ (coming (wr 0x004 0x300#32) State.reset).resetNext := by
  refine ⟨rfl, rfl, rfl, rfl, ?_⟩
  simp [State.nextEvent, coming, wr]
theorem witness_Sticky_step : step (coming (wr 0x004 0x300#32) State.reset.raiseCmdLost.raiseAccErr) = .next State.reset :=
  congrArg Host.Outcome.next ((hostAccess_base_add _ (off := 0x004) (by decide) .word (.write 0x300#32)).trans rfl)

end Sys2Proof.Tests
end

section
/-! PROOFS. Byte order (00_scope.md R12): `leList` as a sum, its digits and its bound by induction on the byte list, then LE and LE32 on 32 bytes. -/

namespace Sys2Proof.Machine

/-- The little-endian value of n bytes is the sum of the bytes times powers of 256. -/
theorem leList_ofFn {n : Nat} (f : Fin n → Byte) :
    leList (List.ofFn f) = ∑ i : Fin n, (f i).toNat * 256 ^ i.val := by
  induction n with
  | zero => rfl
  | succ n ih =>
    rw [List.ofFn_succ, leList, ih, Fin.sum_univ_succ, Finset.mul_sum]
    congr 1
    · simp
    · refine Finset.sum_congr rfl fun i _ => ?_
      rw [Fin.val_succ, pow_succ]
      ring

theorem leList_lt (l : List Byte) : leList l < 256 ^ l.length := by
  induction l with
  | nil => decide
  | cons b bs ih =>
    have hb : b.toNat < 256 := b.isLt
    rw [leList, List.length_cons, pow_succ]
    omega

/-- Digit i in base 256 is byte i. -/
theorem leList_digit (l : List Byte) (i : Nat) (h : i < l.length) : leList l / 256 ^ i % 256 = l[i].toNat := by
  induction l generalizing i with
  | nil => exact absurd h (Nat.not_lt_zero i)
  | cons b bs ih =>
    have hb : b.toNat < 256 := b.isLt
    cases i with
    | zero => simp only [leList, pow_zero, List.getElem_cons_zero]; omega
    | succ i =>
      have htail : leList (b :: bs) / 256 = leList bs := by rw [leList]; omega
      rw [pow_succ', ← Nat.div_div_eq_div_mul, htail, List.getElem_cons_succ]
      exact ih i (Nat.lt_of_succ_lt_succ h)

/-- The first n digits of x in base 256, as bytes, have the value x mod 256^n. -/
theorem leList_digits (n x : Nat) : leList (List.ofFn fun i : Fin n => BitVec.ofNat 8 (x / 256 ^ i.val)) = x % 256 ^ n := by
  induction n generalizing x with
  | zero => simp [leList, Nat.mod_one]
  | succ n ih =>
    have htail (i : Fin n) : x / 256 ^ i.succ.val = x / 256 / 256 ^ i.val := by
      rw [Fin.val_succ, pow_succ', Nat.div_div_eq_div_mul]
    simp only [List.ofFn_succ, leList, htail, ih (x / 256)]
    rw [pow_succ', Nat.mod_mul]
    simp

theorem two_pow_eight_mul (i : Nat) : 2 ^ (8 * i) = 256 ^ i := pow_mul 2 8 i

theorem toList_eq_ofFn (v : Bytes32) : v.toList = List.ofFn fun i : Fin 32 => v[i] :=
  (congrArg Vector.toList Vector.ofFn_getElem).symm.trans Vector.toList_ofFn

theorem le_eq_leSum (v : Bytes32) : le v = leSum v := by
  rw [le, toList_eq_ofFn, leList_ofFn, leSum]

theorem le_lt (v : Bytes32) : le v < 2 ^ 256 := by
  have h := leList_lt v.toList
  rw [Vector.length_toList, ← two_pow_eight_mul] at h
  exact h

/-- Byte i of the value of 32 bytes is byte i. -/
theorem le_digit (v : Bytes32) (i : Nat) (h : i < 32) : le v / 2 ^ (8 * i) % 256 = v[i].toNat := by
  rw [le, two_pow_eight_mul, leList_digit _ _ (by rw [Vector.length_toList]; exact h), Vector.getElem_toList]

theorem le32_getElem (x i : Nat) (h : i < 32) : (le32 x)[i] = BitVec.ofNat 8 (x / 2 ^ (8 * i)) := by
  rw [le32, Vector.getElem_ofFn, Nat.shiftRight_eq_div_pow]

/-- Byte i of LE32(x) is bits 8i+7 to 8i of x (R12). -/
theorem le32_getElem_toNat (x i : Nat) (h : i < 32) : (le32 x)[i].toNat = x / 2 ^ (8 * i) % 256 := by
  rw [le32_getElem, BitVec.toNat_ofNat]

theorem le32_le (v : Bytes32) : le32 (le v) = v := by
  refine Vector.ext fun i h => BitVec.eq_of_toNat_eq ?_
  rw [le32_getElem_toNat, le_digit]

theorem le_le32_mod (x : Nat) : le (le32 x) = x % 2 ^ 256 := by
  have hbytes : (le32 x).toList = List.ofFn fun i : Fin 32 => BitVec.ofNat 8 (x / 256 ^ i.val) := by
    rw [toList_eq_ofFn]
    refine congrArg List.ofFn (funext fun i => ?_)
    rw [Fin.getElem_fin, le32_getElem, two_pow_eight_mul]
  rw [le, hbytes, leList_digits, ← two_pow_eight_mul]

theorem le_le32 {x : Nat} (h : x < 2 ^ 256) : le (le32 x) = x := by
  rw [le_le32_mod, Nat.mod_eq_of_lt h]

end Sys2Proof.Machine
end

section
/-! PROOFS. The field's unique residue and its inverse (00_scope.md R11): `finv` is the power p − 2 in ZMod p, and p is prime. -/

namespace Sys2Proof.Machine

open Sys2Proof.Config

theorem two_lt_P : 2 < P := by decide +kernel

/-- A reduced number congruent to v is modp(v), and only that one (R11). -/
theorem modp_eq_iff (v : Int) (r : Nat) : modp v = r ↔ r < P ∧ (r : Int) ≡ v [ZMOD (P : Int)] := by
  rw [← ZMod.intCast_eq_intCast_iff, Int.cast_natCast]
  constructor
  · rintro rfl
    exact ⟨modp_lt v, modp_zmod v⟩
  · rintro ⟨hlt, hmod⟩
    exact eq_of_zmod_eq (modp_lt v) hlt ((modp_zmod v).trans hmod.symm)

/-- The model's chain and the kernel-fast power of the prime's certificates are one function at p. -/
theorem powp_eq_powMod (n a e : Nat) : powp n a e = Laws.powMod P n a e := by
  induction n generalizing a e with
  | zero => rw [powp, Laws.powMod, Nat.mod_eq_of_lt (Nat.lt_of_succ_lt two_lt_P)]
  | succ n ih => simp only [powp, Laws.powMod, fmul_eq_mod, ih]

theorem finv_zmod (a : Nat) : ((finv a : Nat) : ZMod P) = (a : ZMod P) ^ (P - 2) := by
  have hexp : P - 2 < 2 ^ 255 := (Nat.sub_le P 2).trans_lt P_lt_two_pow
  rw [finv, powp_eq_powMod, Laws.powMod_zmod P 255 a (P - 2) hexp]

theorem finv_eq_modp (a : Nat) : finv a = modp ((a : Int) ^ (P - 2)) := by
  refine eq_of_zmod_eq (finv_lt a) (modp_lt _) ?_
  rw [finv_zmod, modp_zmod, Int.cast_pow, Int.cast_natCast]

theorem finv_zero : finv 0 = 0 := by
  refine eq_of_zmod_eq (finv_lt 0) P_pos ?_
  rw [finv_zmod, Nat.cast_zero, zero_pow (Nat.sub_ne_zero_of_lt two_lt_P)]

/-- Fermat's little theorem: p is prime, so a · a^(p−2) = 1 for a ≠ 0. -/
theorem fmul_finv {a : Nat} (hlt : a < P) (hne : a ≠ 0) : fmul a (finv a) = 1 := by
  have hprime : Fact P.Prime := ⟨Laws.prime_P⟩
  have hzmod : (a : ZMod P) ≠ 0 := fun h => hne (eq_of_zmod_eq hlt P_pos (by rw [h, Nat.cast_zero]))
  have hexp : P - 2 + 1 = P - 1 := by have := two_lt_P; omega
  refine eq_of_zmod_eq (fmul_lt _ _) (Nat.lt_of_succ_lt two_lt_P) ?_
  rw [fmul_zmod, finv_zmod, ← pow_succ', hexp, ZMod.pow_card_sub_one_eq_one hzmod, Nat.cast_one]

end Sys2Proof.Machine
end

section
/-! PROOFS. The statements of 00_scope.md settled. -/

namespace Sys2Proof.Machine

/-- Settles O11: modp by congruence, the inverse by Fermat's little theorem. -/
theorem fieldOperationsFollowModp : Obligations.FieldOperationsFollowModp :=
  ⟨modp_eq_iff, fun _ _ => ⟨rfl, rfl, rfl⟩, finv_eq_modp, finv_zero, fun _ => fmul_finv⟩

/-- Settles O18: LE and its inverse from the digits of a byte list. -/
theorem littleEndianRoundTrip : Obligations.LittleEndianRoundTrip :=
  ⟨fun v => ⟨le_eq_leSum v, le_lt v, le32_le v⟩, fun x => ⟨fun i => le32_getElem_toNat x i i.isLt, le_le32⟩⟩

end Sys2Proof.Machine
end

section
/-! PROOFS. What a command does, in two parts: the error its checks raise, and what its rule writes when they raise none. -/

namespace Sys2Proof.Machine

open Sys2Proof.Config

/-- The error a command raises, if its checks raise one: a length of an input buffer (60_exceptions.md R213), or the ladder's
sequence (R215). -/
def commandError (i : Instr) (s : State) : Option CmdError :=
  if ∃ n ∈ inputBuffers i, s.getLen n ≠ 32#6 then some .invalidLength
  else
    match i with
    | .lstep => if s.lact = false ∨ s.round = 0#9 then some .sequence else none
    | .lfin _ => if s.lact = false ∨ s.round ≠ 0#9 then some .sequence else none
    | _ => none

/-- The writes of a command whose checks raise no error. -/
def commandBody (i : Instr) (s : State) : State :=
  match i with
  | .fadd fd fa fb => s.setF fd (fadd (s.getF fa) (s.getF fb))
  | .fsub fd fa fb => s.setF fd (fsub (s.getF fa) (s.getF fb))
  | .fmul fd fa fb => s.setF fd (fmul (s.getF fa) (s.getF fb))
  | .finv fd fa => s.setF fd (finv (s.getF fa))
  | .fcswap fa fb c => (s.setF fa (cswap c (s.getF fa) (s.getF fb)).1).setF fb (cswap c (s.getF fa) (s.getF fb)).2
  | .decu fd bn => s.setF fd (decodeU (s.getBuf bn))
  | .enc bn fa => s.setBuf bn (le32 (s.getF fa))
  | .clamp bn => s.setK (BitVec.ofNat 256 (clampValue (s.getBuf bn)))
  | .kldr bn => s.setK (BitVec.ofNat 256 (le (s.getBuf bn)))
  | .kenc bn => s.setBuf bn (le32 s.k.toNat)
  | .linit fa => linitBody fa s
  | .lstep => lstepBody s
  | .lfin fd => lfinBody fd s
  | .ladder fd fa => lfinBody fd (lstepBody^[rounds] (linitBody fa s))
  | .x25519 bo bk bu => s.setBuf bo (x25519Fn (s.getBuf bk) (s.getBuf bu))
  | .basemul bo bk => s.setBuf bo (x25519Fn (s.getBuf bk) (le32 baseU))

/-- A command either writes its body and succeeds, or raises its error and writes nothing. -/
theorem exec_cases_of_commandError (i : Instr) (s : State) :
    (commandError i s = none ∧ exec i s = .next (commandBody i s).markSuccess) ∨
    (∃ e, commandError i s = some e ∧ exec i s = .next (s.markError e.code)) := by
  cases i with
  | decu _ bn | clamp bn | kldr bn | basemul _ bn =>
    by_cases h : s.getLen bn = 32#6
    · exact .inl ⟨by simp [commandError, inputBuffers, h], congrArg s.conclude (requireLen_of_eq s _ h)⟩
    · exact .inr ⟨.invalidLength, by simp [commandError, inputBuffers, h], congrArg s.conclude (requireLen_of_ne s _ h)⟩
  | x25519 bo bk bu =>
    by_cases hk : s.getLen bk = 32#6
    · by_cases hu : s.getLen bu = 32#6
      · exact .inl ⟨by simp [commandError, inputBuffers, hk, hu],
          congrArg s.conclude ((requireLen_of_eq s _ hk).trans (requireLen_of_eq s _ hu))⟩
      · exact .inr ⟨.invalidLength, by simp [commandError, inputBuffers, hu],
          congrArg s.conclude ((requireLen_of_eq s _ hk).trans (requireLen_of_ne s _ hu))⟩
    · exact .inr ⟨.invalidLength, by simp [commandError, inputBuffers, hk], congrArg s.conclude (requireLen_of_ne s _ hk)⟩
  | lstep =>
    by_cases h : s.lact = false ∨ s.round = 0#9
    · exact .inr ⟨.sequence, if_pos h, congrArg s.conclude (if_pos h)⟩
    · exact .inl ⟨if_neg h, congrArg s.conclude (if_neg h)⟩
  | lfin fd =>
    by_cases h : s.lact = false ∨ s.round ≠ 0#9
    · exact .inr ⟨.sequence, if_pos h, congrArg s.conclude (if_pos h)⟩
    · exact .inl ⟨if_neg h, congrArg s.conclude (if_neg h)⟩
  | _ => exact .inl ⟨rfl, rfl⟩

theorem exec_of_noError {i : Instr} {s : State} (h : commandError i s = none) : exec i s = .next (commandBody i s).markSuccess := by
  obtain ⟨_, hexec⟩ | ⟨e, he, _⟩ := exec_cases_of_commandError i s
  · exact hexec
  · exact absurd (h.symm.trans he) nofun

theorem exec_of_error {i : Instr} {s : State} {e : CmdError} (h : commandError i s = some e) :
    exec i s = .next (s.markError e.code) := by
  obtain ⟨hnone, _⟩ | ⟨e', he, hexec⟩ := exec_cases_of_commandError i s
  · exact absurd (hnone.symm.trans h) nofun
  · obtain rfl := Option.some.inj (h.symm.trans he)
    exact hexec

/-- Every completion either writes the body of a decoded command and succeeds, or raises an error and writes nothing. -/
theorem complete_cases_of_commandError (s : State) :
    (∃ i, decode s.cur = .ok i ∧ commandError i s = none ∧ complete s = .next (commandBody i s).markSuccess) ∨
    (∃ e : CmdError, complete s = .next (s.markError e.code)) := by
  obtain ⟨i, hi, h⟩ | ⟨_, _, h⟩ := complete_cases s
  · obtain ⟨hnone, hexec⟩ | ⟨e, _, hexec⟩ := exec_cases_of_commandError i s
    · exact .inl ⟨i, hi, hnone, h.trans hexec⟩
    · exact .inr ⟨e, h.trans hexec⟩
  · exact .inr ⟨_, h⟩

/-! Which commands write which part of the data state (10_state.md R20, R23 to R26). -/

/-- What 255 rounds leave unchanged, if one round does. -/
theorem lstepBody_iterate_unchanged {α : Type} (g : State → α) (hg : ∀ u, g (lstepBody u) = g u) (n : Nat) (s : State) :
    g (lstepBody^[n] s) = g s := by
  induction n generalizing s with
  | zero => rfl
  | succ n ih => exact (ih (lstepBody s)).trans (hg s)

theorem lfinBody_k (fd : FReg) (s : State) : (lfinBody fd s).k = s.k := rfl
theorem lfinBody_buf (fd : FReg) (s : State) : (lfinBody fd s).buf = s.buf := rfl
theorem lfinBody_len (fd : FReg) (s : State) : (lfinBody fd s).len = s.len := rfl

theorem commandBody_k (i : Instr) (s : State) : (commandBody i s).k = s.k ∨ i.fields.op ∈ [0x12, 0x13] := by
  cases i with
  | clamp _ | kldr _ => exact .inr (by simp [Instr.fields])
  | ladder fd fa => exact .inl ((lfinBody_k fd _).trans (lstepBody_iterate_unchanged State.k (fun _ => rfl) rounds (linitBody fa s)))
  | _ => exact .inl rfl

theorem commandBody_f (i : Instr) (s : State) :
    (commandBody i s).f = s.f ∨ i.fields.op ∈ [0x01, 0x02, 0x03, 0x04, 0x05, 0x10, 0x20, 0x21, 0x22, 0x23] := by
  cases i with
  | enc _ _ | clamp _ | kldr _ | kenc _ | x25519 _ _ _ | basemul _ _ => exact .inl rfl
  | _ => exact .inr (by simp [Instr.fields])

theorem commandBody_ladderFields (i : Instr) (s : State) :
    ((commandBody i s).swap, (commandBody i s).round, (commandBody i s).lact) = (s.swap, s.round, s.lact) ∨
      i.fields.op ∈ [0x20, 0x21, 0x22, 0x23] := by
  cases i with
  | linit _ | lstep | lfin _ | ladder _ _ => exact .inr (by simp [Instr.fields])
  | _ => exact .inl rfl

theorem commandBody_buf (i : Instr) (s : State) :
    (commandBody i s).buf = s.buf ∨ i.fields.op ∈ [0x11, 0x14, 0x30, 0x31] := by
  cases i with
  | enc _ _ | kenc _ | x25519 _ _ _ | basemul _ _ => exact .inr (by simp [Instr.fields])
  | ladder fd fa => exact .inl ((lfinBody_buf fd _).trans (lstepBody_iterate_unchanged State.buf (fun _ => rfl) rounds (linitBody fa s)))
  | _ => exact .inl rfl

theorem commandBody_len (i : Instr) (s : State) :
    (commandBody i s).len = s.len ∨ i.fields.op ∈ [0x11, 0x14, 0x30, 0x31] := by
  cases i with
  | enc _ _ | kenc _ | x25519 _ _ _ | basemul _ _ => exact .inr (by simp [Instr.fields])
  | ladder fd fa => exact .inl ((lfinBody_len fd _).trans (lstepBody_iterate_unchanged State.len (fun _ => rfl) rounds (linitBody fa s)))
  | _ => exact .inl rfl

/-- A command writes data state only. -/
theorem commandBody_dataFrom (i : Instr) (s : State) : (commandBody i s).dataFrom s := by
  cases i with
  | lstep => exact dataFrom_lstepBody rfl
  | lfin fd => exact dataFrom_lfinBody fd rfl
  | ladder fd fa => exact dataFrom_lfinBody fd (dataFrom_lstepBody_iterate rounds rfl)
  | _ => rfl

@[simp] theorem commandBody_cmdlost (i : Instr) (s : State) : (commandBody i s).cmdlost = s.cmdlost := by
  rw [commandBody_dataFrom i s]
@[simp] theorem commandBody_accerr (i : Instr) (s : State) : (commandBody i s).accerr = s.accerr := by
  rw [commandBody_dataFrom i s]
@[simp] theorem commandBody_ie (i : Instr) (s : State) : (commandBody i s).ie = s.ie := by
  rw [commandBody_dataFrom i s]
@[simp] theorem commandBody_inReset (i : Instr) (s : State) : (commandBody i s).inReset = s.inReset := by
  rw [commandBody_dataFrom i s]

/-! What a host access may change while a command is in flight is not read by the command. -/

/-- `s`, with the status bits the host can change and the word it read taken from `h`. -/
def State.hostBitsFrom (h s : State) : State :=
  { s with done := h.done, ie := h.ie, cmdlost := h.cmdlost, accerr := h.accerr, rdata := h.rdata }

theorem commandError_hostBitsFrom (i : Instr) (h s : State) : commandError i (h.hostBitsFrom s) = commandError i s := rfl

theorem lfinBody_hostBitsFrom (fd : FReg) (h s : State) : lfinBody fd (h.hostBitsFrom s) = h.hostBitsFrom (lfinBody fd s) := rfl

theorem commandBody_hostBitsFrom (i : Instr) (h s : State) :
    commandBody i (h.hostBitsFrom s) = h.hostBitsFrom (commandBody i s) := by
  cases i with
  | ladder fd fa =>
    have hcomm : Function.Commute h.hostBitsFrom lstepBody := fun _ => rfl
    have hrounds := hcomm.iterate_right rounds (linitBody fa s)
    exact (congrArg (lfinBody fd) hrounds.symm).trans (lfinBody_hostBitsFrom fd h _)
  | _ => rfl

end Sys2Proof.Machine
end

section
/-! PROOFS. The register map read backwards (20_memory.md R53, R54), and what an access and a step can do, with the host's writes named by their register. -/

namespace Sys2Proof.Machine

open Sys2Proof.Config

/-- The window offset of a register (R53). -/
def Reg.offset (r : Reg) : Nat :=
  match r with
  | .cmd => 0x000
  | .status => 0x004
  | .ctrl => 0x008
  | .lstate => 0x00C
  | .len n => lenOffset n
  | .word n j => wordOffset n j

theorem regAt_offset (r : Reg) : regAt r.offset = some r := by
  cases r with
  | cmd | status | ctrl | lstate => rfl
  | len n => decide +revert
  | word n j => decide +revert

/-- A register lies at one offset only. -/
theorem offset_of_regAt {off : Nat} {r : Reg} (h : regAt off = some r) : off = r.offset := by
  unfold regAt at h
  split_ifs at h <;> cases h <;> simp only [Reg.offset, lenOffset, wordOffset, Fin.val_ofNat] <;> omega

/-- A legal access is 32 bits wide and at its register's offset (R52). -/
theorem accessTarget_eq_some {off : Nat} {size : AccessSize} {r : Reg} (h : accessTarget off size = some r) :
    size = .word ∧ off = r.offset := by
  cases size with
  | word => exact ⟨rfl, offset_of_regAt h⟩
  | byte | half => nomatch h

theorem Reg.offset_lt_windowSize (r : Reg) : r.offset < windowSize := by
  cases r with
  | cmd | status | ctrl | lstate => decide
  | len n => simp only [Reg.offset, lenOffset, windowSize]; omega
  | word n j => simp only [Reg.offset, wordOffset, windowSize]; omega

/-- A register that BUSY blocks is free only while the core is idle (R58). -/
theorem busy_of_free {s : State} {r : Reg} (hblocked : r.blockedWhileBusy = true) (hfree : s.blocks r = false) : s.busy = false := by
  rwa [State.blocks, hblocked, Bool.and_true] at hfree

/-- The host's 32-bit write of a value to a register, as the access it is. -/
abbrev Reg.hostWrite (r : Reg) (v : Word) : Access := { addr := coreBase + r.offset, size := .word, op := .write v }

/-- An access that writes no register: a read, an illegal or blocked access, one under reset, or one outside the window. -/
abbrev State.accessOnlyReports (t s : State) : Prop :=
  t = { s with accerr := t.accerr, rdata := t.rdata } ∧ (t.accerr = s.accerr ∨ s.inReset = false ∧ t.accerr = true)

/-- Everything a host access can do: write the register it names, or no more than set ACCERR and return a word. -/
theorem hostAccess_writes_or_reports (s : State) (a : Access) :
    (∃ r v, a = r.hostWrite v ∧ s.inReset = false ∧ s.blocks r = false ∧ s.hostAccess a = s.writeReg r v) ∨
    (s.hostAccess a).accessOnlyReports s := by
  obtain ⟨_, h⟩ | ⟨hin, h⟩ := hostAccess_cases s a
  · rw [h]; exact .inr ⟨rfl, .inl rfl⟩
  rw [h]
  obtain ⟨_, h | h⟩ | ⟨hr, _, h⟩ | ⟨hr, v, hop, h⟩ := windowAccess_cases s (a.addr - coreBase) a.size a.op <;> rw [h]
  · exact .inr ⟨rfl, .inl rfl⟩
  · exact .inr ⟨rfl, .inl rfl⟩
  · obtain ⟨r, _, _, h⟩ | h := busRead_cases s (a.addr - coreBase) a.size <;> rw [h]
    · exact .inr ⟨rfl, .inl rfl⟩
    · exact .inr ⟨rfl, .inr ⟨hr, rfl⟩⟩
  · obtain ⟨r, htarget, hfree, h⟩ | h := busWrite_cases s (a.addr - coreBase) a.size v <;> rw [h]
    · obtain ⟨hsize, hoff⟩ := accessTarget_eq_some htarget
      have haddr : a.addr = coreBase + r.offset := by
        simp only [inWindow, decide_eq_true_eq] at hin
        omega
      refine .inl ⟨r, v, ?_, hr, hfree, rfl⟩
      obtain ⟨addr, size, op⟩ := a
      exact Access.mk.injEq .. |>.mpr ⟨haddr, hsize, hop⟩
    · exact .inr ⟨rfl, .inr ⟨hr, rfl⟩⟩

/-- An unblocked write to a register, while reset is released. -/
theorem hostAccess_hostWrite (s : State) {r : Reg} (v : Word) (hr : s.inReset = false) (hfree : s.blocks r = false) :
    s.hostAccess (r.hostWrite v) = s.writeReg r v := by
  rw [hostAccess_base_add s r.offset_lt_windowSize, State.windowAccess, hr, State.busWrite]
  simp [accessTarget, regAt_offset, hfree]

/-- While reset is held, an access does nothing but return 0 to a read in the window (70_reset_and_hazards.md R240). -/
theorem hostAccess_inReset {s : State} (a : Access) (hheld : s.inReset = true) :
    (a.op = .read ∧ inWindow a.addr = true ∧ s.hostAccess a = s.returnWord 0) ∨
    ((a.op ≠ .read ∨ inWindow a.addr = false) ∧ s.hostAccess a = s) := by
  obtain ⟨hout, h⟩ | ⟨hin, h⟩ := hostAccess_cases s a
  · exact .inr ⟨.inr hout, h⟩
  · rw [h]
    cases hop : a.op with
    | read => exact .inl ⟨rfl, hin, if_pos hheld⟩
    | write v => exact .inr ⟨.inl nofun, if_pos hheld⟩

/-- Why a step leads from `s` to `t`: the event it takes, and what that event does. -/
inductive StepCase (s t : State) : Prop where
  | hostWrite (r : Reg) (v : Word) (hnext : s.nextEvent = .host (r.hostWrite v)) (hreset : s.inReset = false)
      (hfree : s.blocks r = false) (ht : t = s.popEvent.writeReg r v)
  | hostReport (a : Access) (hnext : s.nextEvent = .host a) (ht : t.accessOnlyReports s.popEvent)
  | success (i : Instr) (hnext : s.completesNext i) (hnone : commandError i s = none)
      (ht : t = (commandBody i s.popEvent).markSuccess)
  | failure (e : CmdError) (hnext : s.nextEvent = .coreTurn) (hbusy : s.busy = true) (ht : t = s.popEvent.markError e.code)
  | idle (hnext : s.nextEvent = .coreTurn) (hidle : s.busy = false) (ht : t = s.popEvent)
  | reset (hnext : s.nextEvent = .reset) (ht : t = s.popEvent.resetCore)
  | assertReset (hnext : s.nextEvent = .assertReset) (ht : t = { s.popEvent.resetCore with inReset := true })
  | releaseReset (hnext : s.nextEvent = .releaseReset) (ht : t = { s.popEvent with inReset := false })

theorem stepCase_of_step {s t : State} (h : step s = .next t) : StepCase s t := by
  obtain ⟨a, hnext, hs⟩ | ⟨hnext, hbusy, hs⟩ | ⟨hnext, hidle, hs⟩ | ⟨hnext, hs⟩ | ⟨hnext, hs⟩ | ⟨hnext, hs⟩ := step_cases s
  · obtain rfl := Host.Outcome.next.inj (hs.symm.trans h)
    obtain ⟨r, v, rfl, hreset, hfree, ht⟩ | ht := hostAccess_writes_or_reports s.popEvent a
    · exact .hostWrite r v hnext hreset hfree ht
    · exact .hostReport a hnext ht
  · obtain ⟨i, hi, hnone, hc⟩ | ⟨e, hc⟩ := complete_cases_of_commandError s.popEvent
    · exact .success i ⟨hnext, hbusy, hi⟩ hnone (Host.Outcome.next.inj (h.symm.trans (hs.trans hc)))
    · exact .failure e hnext hbusy (Host.Outcome.next.inj (h.symm.trans (hs.trans hc)))
  · exact .idle hnext hidle (Host.Outcome.next.inj (h.symm.trans hs))
  · exact .reset hnext (Host.Outcome.next.inj (h.symm.trans hs))
  · exact .assertReset hnext (Host.Outcome.next.inj (h.symm.trans hs))
  · exact .releaseReset hnext (Host.Outcome.next.inj (h.symm.trans hs))

end Sys2Proof.Machine
end

section
/-! PROOFS. Reduced registers and legal ladder fields after every command (10_state.md R22, R24), and the scalar bits a ladder reads (42_ladder.md R160). -/

namespace Sys2Proof.Machine

open Sys2Proof.Config

/-- The mask form is the conditional exchange (42_ladder.md R161). -/
theorem cswap_eq {a b : Nat} (c : Bool) (ha : a < 2 ^ 256) (hb : b < 2 ^ 256) :
    cswap c a b = if c then (b, a) else (a, b) := by
  cases c with
  | false => simp [cswap]
  | true =>
    have hmask : (2 ^ 256 - 1) % 2 ^ 256 &&& (a ^^^ b) = a ^^^ b := by
      rw [Nat.mod_eq_of_lt (by decide), Nat.and_comm, Nat.and_two_pow_sub_one_of_lt_two_pow (Nat.xor_lt_two_pow ha hb)]
    simp only [cswap, Bool.toNat_true, hmask, if_true]
    rw [← Nat.xor_assoc, Nat.xor_self, Nat.zero_xor, Nat.xor_comm a b, ← Nat.xor_assoc, Nat.xor_self, Nat.zero_xor]

/-- The exchange takes field elements to field elements. -/
theorem cswap_lt {a b : Nat} (c : Bool) (ha : a < P) (hb : b < P) : (cswap c a b).1 < P ∧ (cswap c a b).2 < P := by
  have hP : P < 2 ^ 256 := P_lt_two_pow.trans (by decide)
  rw [cswap_eq c (ha.trans hP) (hb.trans hP)]
  cases c with
  | false => exact ⟨ha, hb⟩
  | true => exact ⟨hb, ha⟩

/-- The four coordinates are reduced. -/
abbrev Pairs.reduced (q : Pairs) : Prop := q.x2 < P ∧ q.z2 < P ∧ q.x3 < P ∧ q.z3 < P

theorem Pairs.reduced_cswap {q : Pairs} (c : Bool) (h : q.reduced) : (q.cswap c).reduced := by
  obtain ⟨hx2, hz2, hx3, hz3⟩ := h
  exact ⟨(cswap_lt c hx2 hx3).1, (cswap_lt c hz2 hz3).1, (cswap_lt c hx2 hx3).2, (cswap_lt c hz2 hz3).2⟩

theorem Pairs.reduced_arith (x1 : Nat) (q : Pairs) : (q.arith x1).reduced :=
  ⟨fmul_lt _ _, fmul_lt _ _, fmul_lt _ _, fmul_lt _ _⟩

theorem State.reduced.setF {s : State} {v : Nat} (h : s.reduced) (r : FReg) (hv : v < P) : (s.setF r v).reduced := by
  intro r'
  rw [getF_setF]
  split
  · exact hv
  · exact h r'

theorem State.reduced.setPairs {s : State} {q : Pairs} (h : s.reduced) (hq : q.reduced) : (s.setPairs q).reduced := by
  obtain ⟨hx2, hz2, hx3, hz3⟩ := hq
  exact (((h.setF rX2 hx2).setF rZ2 hz2).setF rX3 hx3).setF rZ3 hz3

theorem State.reduced.setLadder {s : State} (h : s.reduced) (swap : Bool) (round : BitVec 9) (lact : Bool) :
    (s.setLadder swap round lact).reduced := h

theorem State.reduced.getPairs {s : State} (h : s.reduced) : s.getPairs.reduced := ⟨h rX2, h rZ2, h rX3, h rZ3⟩

theorem reduced_linitBody {s : State} (fa : FReg) (h : s.reduced) : (linitBody fa s).reduced := by
  have hone : 1 < P := Nat.lt_of_succ_lt two_lt_P
  exact (h.setF rX1 (h fa)).setPairs ⟨hone, P_pos, h fa, hone⟩

theorem reduced_lstepBody {s : State} (h : s.reduced) : (lstepBody s).reduced :=
  h.setPairs (Pairs.reduced_arith _ _)

theorem reduced_lstepBody_iterate {s : State} (n : Nat) (h : s.reduced) : (lstepBody^[n] s).reduced := by
  induction n generalizing s with
  | zero => exact h
  | succ n ih => exact ih (reduced_lstepBody h)

theorem reduced_lfinBody {s : State} (fd : FReg) (h : s.reduced) : (lfinBody fd s).reduced := by
  have hswapped := h.setPairs (Pairs.reduced_cswap s.swap h.getPairs)
  exact (hswapped.setLadder s.swap s.round false).setF fd (fmul_lt _ _)

/-- Every command writes reduced values to field registers (R22). -/
theorem reduced_commandBody {s : State} (i : Instr) (h : s.reduced) : (commandBody i s).reduced := by
  cases i with
  | fadd fd fa fb => exact h.setF fd (fadd_lt _ _)
  | fsub fd fa fb => exact h.setF fd (fsub_lt _ _)
  | fmul fd fa fb => exact h.setF fd (fmul_lt _ _)
  | finv fd fa => exact h.setF fd (finv_lt _)
  | fcswap fa fb c =>
    obtain ⟨hfst, hsnd⟩ := cswap_lt c (h fa) (h fb)
    exact (h.setF fa hfst).setF fb hsnd
  | decu fd bn => exact h.setF fd (modp_lt _)
  | enc _ _ | clamp _ | kldr _ | kenc _ | x25519 _ _ _ | basemul _ _ => exact h
  | linit fa => exact reduced_linitBody fa h
  | lstep => exact reduced_lstepBody h
  | lfin fd => exact reduced_lfinBody fd h
  | ladder fd fa => exact reduced_lfinBody fd (reduced_lstepBody_iterate rounds (reduced_linitBody fa h))

/-- Each round counts ROUND down by one (42_ladder.md R163). -/
theorem lstepBody_round (s : State) : (lstepBody s).round.toNat = s.round.toNat - 1 := by
  have hlt := s.round.isLt
  simp only [lstepBody, State.setLadder_round, BitVec.toNat_ofNat]
  omega

theorem lstepBody_iterate_round (n : Nat) (s : State) : (lstepBody^[n] s).round.toNat = s.round.toNat - n := by
  induction n generalizing s with
  | zero => rfl
  | succ n ih => rw [Function.iterate_succ_apply, ih, lstepBody_round, Nat.sub_sub, Nat.add_comm]

theorem linitBody_round (fa : FReg) (s : State) : (linitBody fa s).round = 255#9 := rfl

/-- No round is left to run after LINIT and 255 rounds. -/
theorem round_after_rounds (fa : FReg) (s : State) : (lstepBody^[rounds] (linitBody fa s)).round = 0#9 := by
  apply BitVec.eq_of_toNat_eq
  rw [lstepBody_iterate_round, linitBody_round, rounds]
  decide

theorem ladderLegal_lfinBody {s : State} (fd : FReg) (h : s.round = 0#9) : (lfinBody fd s).ladderLegal :=
  ⟨(congrArg BitVec.toNat h).trans_le (Nat.zero_le 255), fun _ => h⟩

theorem commandError_lstep {s : State} (h : commandError .lstep s = none) : s.lact = true ∧ s.round ≠ 0#9 := by
  simpa [commandError, inputBuffers] using h

theorem commandError_lfin {s : State} {fd : FReg} (h : commandError (.lfin fd) s = none) : s.lact = true ∧ s.round = 0#9 := by
  simpa [commandError, inputBuffers] using h

/-- A command that raises no error leaves ROUND in its range, and 0 when it leaves no ladder open (R24). -/
theorem ladderLegal_commandBody {s : State} {i : Instr} (h : s.ladderLegal) (hnone : commandError i s = none) :
    (commandBody i s).ladderLegal := by
  cases i with
  | linit fa => exact ⟨(by decide : (255#9).toNat ≤ 255), nofun⟩
  | lstep =>
    obtain ⟨hlact, _⟩ := commandError_lstep hnone
    exact ⟨(lstepBody_round s).trans_le ((Nat.sub_le _ _).trans h.1),
      fun hclosed => absurd (hclosed.symm.trans hlact) Bool.false_ne_true⟩
  | lfin fd => exact ladderLegal_lfinBody fd (commandError_lfin hnone).2
  | ladder fd fa => exact ladderLegal_lfinBody fd (round_after_rounds fa s)
  | _ => exact h

/-- Rounds n − 1 to 0 read bits n − 1 to 0 of the scalar (R160). -/
theorem ladderRounds_congr {k k' : Scalar} (x1 n : Nat) (h : ∀ t, t < n → k.getLsbD t = k'.getLsbD t) (q : Pairs) (swap : Bool) :
    ladderRounds k x1 n q swap = ladderRounds k' x1 n q swap := by
  induction n generalizing q swap with
  | zero => rfl
  | succ n ih =>
    simp only [ladderRounds, h n (Nat.lt_succ_self n)]
    exact ih (fun t ht => h t (Nat.lt_succ_of_lt ht)) _ _

theorem ladderFn_congr {k k' : Scalar} (u : Nat) (h : ∀ t, t < rounds → k.getLsbD t = k'.getLsbD t) :
    ladderFn k u = ladderFn k' u := by
  rw [ladderFn, ladderFn, ladderRounds_congr u rounds h]

end Sys2Proof.Machine
end

section
/-! PROOFS. The invariant (10_state.md R22, R24, R28, R31, 70_reset_and_hazards.md R240) after each agent's event. -/

namespace Sys2Proof.Machine

open Sys2Proof.Config

/-- A released reset input asks nothing of the other elements. -/
theorem resetLegal_of_released {s : State} (h : s.inReset = false) : s.resetLegal :=
  fun hheld => absurd (h.symm.trans hheld) Bool.false_ne_true

/-- What the core holds under reset does not depend on the events to come or on the word last read. -/
theorem State.Inv.outside {s : State} (h : s.Inv) (sched : List Event) (rdata : Option Word) :
    State.Inv { s with sched := sched, rdata := rdata } :=
  { reduced := h.reduced
    status := h.status
    ladder := h.ladder
    inFlight := h.inFlight
    resetHeld := fun hheld => congrArg (fun u : State => { u with sched := sched, rdata := rdata }) (h.resetHeld hheld) }

theorem State.Inv.inReset_of_busy {s : State} (h : s.Inv) (hbusy : s.busy = true) : s.inReset = false := by
  by_contra hheld
  have hidle : s.busy = false := congrArg State.busy (h.resetHeld (Bool.eq_true_of_not_eq_false hheld))
  exact Bool.false_ne_true (hidle.symm.trans hbusy)

theorem reduced_reset : State.reset.reduced := by
  intro r
  simp [State.getF, State.reset, P_pos]

theorem inv_resetCore (s : State) : s.resetCore.Inv :=
  { reduced := reduced_reset
    status := (by decide : State.reset.statusLegal)
    ladder := (by decide : State.reset.ladderLegal)
    inFlight := nofun
    resetHeld := nofun }

theorem inv_assertReset (s : State) : State.Inv { s.resetCore with inReset := true } :=
  { reduced := reduced_reset
    status := (by decide : State.reset.statusLegal)
    ladder := (by decide : State.reset.ladderLegal)
    inFlight := nofun
    resetHeld := fun _ => rfl }

theorem inv_releaseReset {s : State} (h : s.Inv) : State.Inv { s with inReset := false } :=
  { reduced := h.reduced
    status := h.status
    ladder := h.ladder
    inFlight := h.inFlight
    resetHeld := nofun }

theorem inv_markSuccess {s : State} (hred : s.reduced) (hladder : s.ladderLegal) (hreset : s.inReset = false) :
    s.markSuccess.Inv :=
  { reduced := hred
    status := ⟨nofun, by simp, by simp⟩
    ladder := hladder
    inFlight := nofun
    resetHeld := resetLegal_of_released hreset }

/-- Every command error has a code of 1 to 3 (60_exceptions.md R211). -/
theorem CmdError.code_legal (e : CmdError) : e.code ≠ 0#4 ∧ e.code.toNat ≤ 3 := by
  cases e <;> decide

theorem inv_markError {s : State} (h : s.Inv) (hreset : s.inReset = false) (e : CmdError) : (s.markError e.code).Inv :=
  { reduced := h.reduced
    status := ⟨nofun, by simp [e.code_legal.1], e.code_legal.2⟩
    ladder := h.ladder
    inFlight := nofun
    resetHeld := resetLegal_of_released hreset }

/-- An access that writes no register keeps the invariant: under reset it leaves ACCERR as it is. -/
theorem State.Inv.accessOnlyReports {s t : State} (h : s.Inv) (ht : t.accessOnlyReports s) : t.Inv := by
  obtain ⟨ht, haccerr | ⟨hreset, _⟩⟩ := ht
  · rw [haccerr] at ht
    exact ht ▸ h.outside s.sched t.rdata
  · rw [ht]
    exact { reduced := h.reduced, status := h.status, ladder := h.ladder, inFlight := h.inFlight,
            resetHeld := resetLegal_of_released hreset }

theorem statusLegal_writeReg {s : State} (h : s.statusLegal) (r : Reg) (v : Word) : (s.writeReg r v).statusLegal := by
  cases r with
  | cmd =>
    obtain ⟨_, hw⟩ | ⟨_, hw⟩ := writeCmd_cases s v <;> rw [State.writeReg, hw]
    · exact h
    · exact ⟨fun _ => ⟨rfl, rfl, rfl⟩, by simp, by simp⟩
  | status =>
    obtain ⟨hbusy, hcode⟩ := h
    refine ⟨fun hb => ?_, hcode⟩
    obtain ⟨hdone, herr⟩ := hbusy hb
    exact ⟨by simp [State.writeReg, hdone], herr⟩
  | ctrl | lstate | len _ | word _ _ => exact h

theorem inFlightLegal_writeReg {s : State} (h : s.inFlightLegal) (r : Reg) (v : Word) : (s.writeReg r v).inFlightLegal := by
  cases r with
  | cmd =>
    obtain ⟨_, hw⟩ | ⟨_, hw⟩ := writeCmd_cases s v <;> rw [State.writeReg, hw]
    · exact h
    · exact fun _ => rfl
  | status | ctrl | lstate | len _ | word _ _ => exact h

theorem inv_writeReg {s : State} (h : s.Inv) (hreset : s.inReset = false) (r : Reg) (v : Word) : (s.writeReg r v).Inv := by
  obtain ⟨hf, _, _, hround, hlact, hinReset, _⟩ := sameCore_writeReg s r v
  exact
    { reduced := fun reg => by rw [State.getF, hf]; exact h.reduced reg
      status := statusLegal_writeReg h.status r v
      ladder := by rw [State.ladderLegal, hround, hlact]; exact h.ladder
      inFlight := inFlightLegal_writeReg h.inFlight r v
      resetHeld := resetLegal_of_released (hinReset.trans hreset) }

theorem inv_commandSuccess {s : State} {i : Instr} (h : s.Inv) (hbusy : s.busy = true) (hnone : commandError i s = none) :
    (commandBody i s).markSuccess.Inv :=
  inv_markSuccess (reduced_commandBody i h.reduced) (ladderLegal_commandBody h.ladder hnone)
    ((commandBody_inReset i s).trans (h.inReset_of_busy hbusy))

/-- The invariant's step lemma, by the event the step takes. -/
theorem inv_step {s t : State} (hinv : s.Inv) (h : step s = .next t) : t.Inv := by
  have hpop : s.popEvent.Inv := hinv.outside s.sched.tail s.rdata
  cases stepCase_of_step h with
  | hostWrite r v _ hreset _ ht => exact ht ▸ inv_writeReg hpop hreset r v
  | hostReport a _ ht => exact hpop.accessOnlyReports ht
  | success i hnext hnone ht =>
    obtain ⟨_, hbusy, _⟩ := hnext
    exact ht ▸ inv_commandSuccess hpop hbusy hnone
  | failure e _ hbusy ht => exact ht ▸ inv_markError hpop (hpop.inReset_of_busy hbusy) e
  | idle _ _ ht => exact ht ▸ hpop
  | reset _ ht => exact ht ▸ inv_resetCore s.popEvent
  | assertReset _ ht => exact ht ▸ inv_assertReset s.popEvent
  | releaseReset _ ht => exact ht ▸ inv_releaseReset hpop

end Sys2Proof.Machine
end

section
/-! PROOFS. What changes the data state, the sticky bits and irq, and what an in-flight command sees of the host. -/

namespace Sys2Proof.Machine

open Sys2Proof.Config

/-- No element of the data state differs. -/
abbrev State.sameData (t s : State) : Prop :=
  t.k = s.k ∧ t.f = s.f ∧ (t.swap, t.round, t.lact) = (s.swap, s.round, s.lact) ∧ t.buf = s.buf ∧ t.len = s.len

/-- Apart from reset, a step leaves the data state as it is, completes a command without error, or takes a host write. -/
theorem step_writes_data {s t : State} (h : step s = .next t) (hreset : ¬ s.resetNext) :
    t.sameData s ∨
    (∃ i, s.completesNext i ∧ t = (commandBody i s.popEvent).markSuccess) ∨
    (∃ r v, s.nextEvent = .host (r.hostWrite v) ∧ s.inReset = false ∧ s.blocks r = false ∧ t = s.popEvent.writeReg r v) := by
  cases stepCase_of_step h with
  | hostWrite r v hnext hreleased hfree ht => exact .inr (.inr ⟨r, v, hnext, hreleased, hfree, ht⟩)
  | hostReport _ _ ht => exact .inl (by rw [ht.1]; exact ⟨rfl, rfl, rfl, rfl, rfl⟩)
  | success i hnext _ ht => exact .inr (.inl ⟨i, hnext, ht⟩)
  | failure _ _ _ ht => exact .inl (ht ▸ ⟨rfl, rfl, rfl, rfl, rfl⟩)
  | idle _ _ ht => exact .inl (ht ▸ ⟨rfl, rfl, rfl, rfl, rfl⟩)
  | reset hnext _ => exact absurd (.inl hnext) hreset
  | assertReset hnext _ => exact absurd (.inr hnext) hreset
  | releaseReset _ ht => exact .inl (ht ▸ ⟨rfl, rfl, rfl, rfl, rfl⟩)

/-- What neither an acceptance nor a lost command changes, a write to CMD leaves as it is. -/
theorem writeCmd_unchanged {α : Type} (g : State → α) {s : State} {v : Word} (hlost : g s.raiseCmdLost = g s)
    (haccept : g (s.accept v) = g s) : g (s.writeCmd v) = g s := by
  obtain ⟨_, hw⟩ | ⟨_, hw⟩ := writeCmd_cases s v <;> rwa [hw]

/-- A register write changes buffers only at a buffer word. -/
theorem writeReg_buf (s : State) (r : Reg) (v : Word) : (s.writeReg r v).buf = s.buf ∨ ∃ n j, r = .word n j := by
  cases r with
  | cmd => exact .inl (writeCmd_unchanged State.buf rfl rfl)
  | word n j => exact .inr ⟨n, j, rfl⟩
  | status | ctrl | lstate | len _ => exact .inl rfl

/-- A register write changes lengths only at a length register. -/
theorem writeReg_len (s : State) (r : Reg) (v : Word) : (s.writeReg r v).len = s.len ∨ ∃ n, r = .len n := by
  cases r with
  | cmd => exact .inl (writeCmd_unchanged State.len rfl rfl)
  | len n => exact .inr ⟨n, rfl⟩
  | status | ctrl | lstate | word _ _ => exact .inl rfl

/-- CMDLOST and ACCERR stay 1 where they were 1. -/
abbrev State.keepsSticky (t s : State) : Prop :=
  (s.cmdlost = true → t.cmdlost = true) ∧ (s.accerr = true → t.accerr = true)

theorem keepsSticky_writeReg (s : State) {r : Reg} (v : Word) (hr : r ≠ .status) : (s.writeReg r v).keepsSticky s := by
  cases r with
  | cmd =>
    obtain ⟨_, hw⟩ | ⟨_, hw⟩ := writeCmd_cases s v <;> rw [State.writeReg, hw]
    · exact ⟨fun _ => rfl, id⟩
    · exact ⟨id, id⟩
  | status => exact absurd rfl hr
  | ctrl | lstate | len _ | word _ _ => exact ⟨id, id⟩

/-- Apart from reset, a step keeps the sticky bits, or it is a host write to STATUS (20_memory.md R56). -/
theorem step_keepsSticky {s t : State} (h : step s = .next t) (hreset : ¬ s.resetNext) :
    t.keepsSticky s ∨ ∃ v : Word, s.nextEvent = .host (Reg.status.hostWrite v) ∧ t = s.popEvent.clearStatus v := by
  cases stepCase_of_step h with
  | hostWrite r v hnext _ _ ht =>
    by_cases hr : r = .status
    · subst hr
      exact .inr ⟨v, hnext, ht⟩
    · exact .inl (ht ▸ keepsSticky_writeReg s.popEvent v hr)
  | hostReport _ _ ht =>
    refine .inl ⟨fun hset => by rw [ht.1]; exact hset, fun hset => ?_⟩
    obtain hkept | ⟨_, hraised⟩ := ht.2
    · exact hkept.trans hset
    · exact hraised
  | success i _ _ ht =>
    exact .inl ⟨fun hset => ht ▸ (commandBody_cmdlost i s.popEvent).trans hset,
      fun hset => ht ▸ (commandBody_accerr i s.popEvent).trans hset⟩
  | failure _ _ _ ht | idle _ _ ht | releaseReset _ ht => exact .inl (ht ▸ ⟨id, id⟩)
  | reset hnext _ => exact absurd (.inl hnext) hreset
  | assertReset hnext _ => exact absurd (.inr hnext) hreset

/-! irq is no state of its own (60_exceptions.md R220): it follows IE and DONE. -/

theorem irq_of_done {s : State} (h : s.done = true) : s.irq = s.ie := by
  rw [State.irq, h, Bool.and_true]

/-- A register write raises irq only by IE = 1 while DONE = 1. -/
theorem writeReg_irq {s : State} (r : Reg) (v : Word) (hlow : s.irq = false) :
    (s.writeReg r v).irq = false ∨ r = .ctrl ∧ s.done = true ∧ v.getLsbD 0 = true := by
  cases r with
  | cmd =>
    obtain ⟨_, hw⟩ | ⟨_, hw⟩ := writeCmd_cases s v <;> rw [State.writeReg, hw]
    · exact .inl hlow
    · exact .inl (Bool.and_false s.ie)
  | status =>
    have hassoc : (s.clearStatus v).irq = (s.irq && !v.getLsbD 1) := (Bool.and_assoc s.ie s.done _).symm
    exact .inl (hassoc.trans (by rw [hlow, Bool.false_and]))
  | ctrl =>
    cases hirq : (s.setCtrl v).irq with
    | false => exact .inl hirq
    | true => exact .inr ⟨rfl, (Bool.and_eq_true_iff.mp hirq).symm⟩
  | lstate | len _ | word _ _ => exact .inl hlow

/-- After a completion, successful or failed, irq is IE. -/
theorem irq_of_complete {s t : State} (h : complete s = .next t) : t.irq = s.ie := by
  obtain ⟨i, _, _, hc⟩ | ⟨e, hc⟩ := complete_cases_of_commandError s
  · obtain rfl := Host.Outcome.next.inj (hc.symm.trans h)
    exact (irq_of_done rfl).trans (commandBody_ie i s)
  · obtain rfl := Host.Outcome.next.inj (hc.symm.trans h)
    exact irq_of_done rfl

theorem step_of_coreTurn {s : State} (hnext : s.nextEvent = .coreTurn) (hbusy : s.busy = true) : step s = complete s.popEvent := by
  rw [step_eq_runEvent, hnext]
  exact if_pos hbusy

theorem step_of_host {s : State} {a : Access} (hnext : s.nextEvent = .host a) : step s = .next (s.popEvent.hostAccess a) := by
  rw [step_eq_runEvent, hnext, runEvent]

/-- Without a completion with IE = 1 or a host write of IE = 1 while DONE = 1, irq stays 0. -/
theorem step_raises_irq {s t : State} (h : step s = .next t) (hlow : s.irq = false) (hhigh : t.irq = true) :
    (s.nextEvent = .coreTurn ∧ s.busy = true ∧ s.ie = true) ∨
      (s.done = true ∧ s.inReset = false ∧ ∃ v : Word, v.getLsbD 0 = true ∧ s.nextEvent = .host (Reg.ctrl.hostWrite v)) := by
  have hlow_of {u : State} (ht : t = u) (hu : u.irq = false) : False :=
    Bool.false_ne_true (hu.symm.trans ((congrArg State.irq ht).symm.trans hhigh))
  cases stepCase_of_step h with
  | hostWrite r v hnext hreset _ ht =>
    obtain hkept | ⟨rfl, hdone, hv⟩ := writeReg_irq (s := s.popEvent) r v hlow
    · exact (hlow_of ht hkept).elim
    · exact .inr ⟨hdone, hreset, v, hv, hnext⟩
  | hostReport _ _ ht => exact (hlow_of ht.1 hlow).elim
  | success i hnext _ _ =>
    obtain ⟨hturn, hbusy, _⟩ := hnext
    exact .inl ⟨hturn, hbusy, (irq_of_complete ((step_of_coreTurn hturn hbusy).symm.trans h)).symm.trans hhigh⟩
  | failure _ hturn hbusy _ =>
    exact .inl ⟨hturn, hbusy, (irq_of_complete ((step_of_coreTurn hturn hbusy).symm.trans h)).symm.trans hhigh⟩
  | idle _ _ ht | releaseReset _ ht => exact (hlow_of ht hlow).elim
  | reset _ ht | assertReset _ ht => exact (hlow_of ht rfl).elim

/-! A command in flight and the host (10_state.md R31, 20_memory.md R58). -/

/-- While a command is in flight, a register write that is not blocked changes no more than DONE, IE, CMDLOST and ACCERR. -/
theorem writeReg_of_busy {s : State} {r : Reg} (v : Word) (hbusy : s.busy = true) (hfree : s.blocks r = false) :
    s.writeReg r v = (s.writeReg r v).hostBitsFrom s := by
  cases r with
  | cmd =>
    obtain ⟨_, hw⟩ | ⟨hidle, _⟩ := writeCmd_cases s v
    · rw [State.writeReg, hw]; rfl
    · exact absurd (hidle.symm.trans hbusy) Bool.false_ne_true
  | status | ctrl | lstate => rfl
  | len _ | word _ _ => exact absurd ((busy_of_free rfl hfree).symm.trans hbusy) Bool.false_ne_true

/-- While a command is in flight, a host access changes no more than the host's status bits and the word it reads. -/
theorem hostAccess_of_busy {s : State} (a : Access) (hbusy : s.busy = true) :
    s.hostAccess a = (s.hostAccess a).hostBitsFrom s := by
  obtain ⟨r, v, _, _, hfree, h⟩ | ⟨h, _⟩ := hostAccess_writes_or_reports s a
  · rw [h]; exact writeReg_of_busy v hbusy hfree
  · rw [h]; rfl

/-- Completing is blind to the host's status bits: it sets DONE and carries the others along. -/
theorem complete_hostBitsFrom (h s : State) :
    ∃ t, complete s = .next t ∧ complete (h.hostBitsFrom s) =
      .next { t with ie := h.ie, cmdlost := h.cmdlost, accerr := h.accerr, rdata := h.rdata } := by
  cases hdecode : decode s.cur with
  | error r => exact ⟨_, complete_of_error hdecode, complete_of_error (s := h.hostBitsFrom s) hdecode⟩
  | ok i =>
    rw [complete_of_ok hdecode, complete_of_ok (s := h.hostBitsFrom s) hdecode]
    cases herror : commandError i s with
    | none =>
      refine ⟨_, exec_of_noError herror, ?_⟩
      rw [exec_of_noError ((commandError_hostBitsFrom i h s).trans herror), commandBody_hostBitsFrom]
      rfl
    | some e => exact ⟨_, exec_of_error herror, exec_of_error ((commandError_hostBitsFrom i h s).trans herror)⟩

end Sys2Proof.Machine
end

section
/-! PROOFS. The statements of 10_state.md settled. -/

namespace Sys2Proof.Machine

open Sys2Proof.Config

/-- Settles O44: each agent's event keeps the invariant. -/
theorem stepKeepsInvariant : Obligations.StepKeepsInvariant := fun _ _ => inv_step

/-- Settles O45: reset is the reset of the reset state. -/
theorem resetSatisfiesInvariant : Obligations.ResetSatisfiesInvariant := ⟨inv_resetCore State.reset, rfl, rfl⟩

/-- Settles O28: a ladder's 255 rounds read bits 254 to 0. -/
theorem ladderIgnoresScalarBit255 : Obligations.LadderIgnoresScalarBit255 := fun _ _ u h => ladderFn_congr u h

/-- After reset no length is 32, so every command with an input buffer raises INVALID_LENGTH. -/
theorem commandError_reset {i : Instr} (h : inputBuffers i ≠ []) : commandError i State.reset = some .invalidLength := by
  obtain ⟨n, hn⟩ := List.exists_mem_of_ne_nil _ h
  refine if_pos ⟨n, hn, ?_⟩
  simp [State.getLen, State.reset]

/-- Settles O46: the values by unfolding reset, the commands by their length check. -/
theorem resetValues : Obligations.ResetValues := by
  refine ⟨?_, rfl, rfl, rfl, rfl, ?_, ?_, rfl, rfl, rfl, rfl, rfl, rfl, ?_⟩
  · intro r; simp [State.getF, State.reset]
  · intro n i; simp [State.getBuf, State.reset]
  · intro n; simp [State.getLen, State.reset]
  · exact fun i hi => exec_of_error (commandError_reset hi)

/-- Settles O47: the two reset events as defined, an access under reset by its two cases. -/
theorem resetAbandonsCommand : Obligations.ResetAbandonsCommand := by
  intro s
  refine ⟨fun hnext => ?_, fun hnext => ?_, fun a hnext hheld => ⟨_, step_of_host hnext, ?_⟩⟩
  · rw [step_eq_runEvent, hnext]; rfl
  · rw [step_eq_runEvent, hnext]; rfl
  · obtain ⟨hread, hin, h⟩ | ⟨hother, h⟩ := hostAccess_inReset (s := s.popEvent) a hheld <;> rw [h]
    · exact ⟨rfl, fun _ _ => rfl, fun hother => absurd hother (by simp [hread, hin])⟩
    · exact ⟨rfl, fun hread hin => absurd hother (by simp [hread, hin]), fun _ => rfl⟩

/-- Settles O56: the access changes only what completing does not read. -/
theorem inFlightCommandUnaffectedByHost : Obligations.InFlightCommandUnaffectedByHost := by
  intro s a hbusy
  have hhost := hostAccess_of_busy a hbusy
  obtain ⟨t, hs, hh⟩ := complete_hostBitsFrom (s.hostAccess a) s
  exact ⟨t, _, hs, (congrArg complete hhost).trans hh, rfl, (congrArg State.busy hhost).trans hbusy⟩

/-- Settles O57: a step writes data by a command's body or a host's register write, and each names what it may write. -/
theorem dataStateHasNamedWriters : Obligations.DataStateHasNamedWriters := by
  intro s t h hreset
  obtain ⟨hk, hf, hladder, hbuf, hlen⟩ | ⟨i, hnext, rfl⟩ | ⟨r, v, hnext, hreleased, hfree, rfl⟩ := step_writes_data h hreset
  · exact ⟨absurd hk, absurd hf, absurd hladder, absurd hbuf, absurd hlen⟩
  · exact ⟨fun hne => ⟨i, hnext, (commandBody_k i s.popEvent).resolve_left hne⟩,
      fun hne => ⟨i, hnext, (commandBody_f i s.popEvent).resolve_left hne⟩,
      fun hne => ⟨i, hnext, (commandBody_ladderFields i s.popEvent).resolve_left hne⟩,
      fun hne => .inr ⟨i, hnext, (commandBody_buf i s.popEvent).resolve_left hne⟩,
      fun hne => .inr ⟨i, hnext, (commandBody_len i s.popEvent).resolve_left hne⟩⟩
  · obtain ⟨hf, hk, hswap, hround, hlact, _, _⟩ := sameCore_writeReg s.popEvent r v
    refine ⟨absurd hk, absurd hf, absurd (by rw [hswap, hround, hlact]; rfl), fun hne => ?_, fun hne => ?_⟩
    · obtain ⟨n, j, rfl⟩ := (writeReg_buf s.popEvent r v).resolve_left hne
      exact .inl ⟨busy_of_free rfl hfree, hreleased, n, j, v, hnext⟩
    · obtain ⟨n, rfl⟩ := (writeReg_len s.popEvent r v).resolve_left hne
      exact .inl ⟨busy_of_free rfl hfree, hreleased, n, v, hnext⟩

/-- Settles O58: only a write to STATUS clears the sticky bits, each by its own bit. -/
theorem stickyBitsStayUntilCleared : Obligations.StickyBitsStayUntilCleared := by
  intro s t h hreset
  obtain ⟨hlost, haccerr⟩ | ⟨v, hnext, rfl⟩ := step_keepsSticky h hreset
  · exact ⟨fun hset hclear => absurd ((hlost hset).symm.trans hclear) nofun,
      fun hset hclear => absurd ((haccerr hset).symm.trans hclear) nofun⟩
  · exact ⟨fun hset hclear => ⟨v, by simpa [hset] using hclear, hnext⟩,
      fun hset hclear => ⟨v, by simpa [hset] using hclear, hnext⟩⟩

/-- Settles O59: one direction over the cases of a step, the other by running the two events. -/
theorem irqRisesAtCompletionOrEnable : Obligations.IrqRisesAtCompletionOrEnable := by
  intro s t h hlow
  refine ⟨step_raises_irq h hlow, ?_⟩
  rintro (⟨hturn, hbusy, hie⟩ | ⟨hdone, hreset, v, hv, hnext⟩)
  · exact (irq_of_complete ((step_of_coreTurn hturn hbusy).symm.trans h)).trans hie
  · have hwrite := hostAccess_hostWrite s.popEvent (r := .ctrl) v hreset (Bool.and_false s.busy)
    obtain rfl := Host.Outcome.next.inj ((step_of_host hnext).symm.trans h)
    exact (congrArg State.irq hwrite).trans ((irq_of_done (s := s.popEvent.setCtrl v) hdone).trans hv)

end Sys2Proof.Machine
end

section
/-! PROOFS. A bus access at a register's offset (20_memory.md R51 to R58), and a buffer word as four bytes of its buffer (R54). -/

namespace Sys2Proof.Machine

open Sys2Proof.Config

/-! Which register an access reaches, and whether BUSY blocks it. -/

/-- Where the registers lie: aligned, and in no reserved range (R53). -/
theorem Reg.offset_legal (r : Reg) : r.offset % 4 = 0 ∧ (r.offset < 0x020 ∨ 0x100 ≤ r.offset) ∧ r.offset < 0x180 := by
  cases r with
  | cmd | status | ctrl | lstate => decide
  | len n => simp only [Reg.offset, lenOffset]; omega
  | word n j => simp only [Reg.offset, wordOffset]; omega

theorem inWindow_iff {addr : Nat} : inWindow addr = true ↔ coreBase ≤ addr ∧ addr < coreBase + 0x200 := decide_eq_true_iff

/-- A narrow, misaligned or reserved access reaches no register (R52). -/
theorem accessTarget_eq_none {off : Nat} {size : AccessSize}
    (h : size ≠ .word ∨ off % 4 ≠ 0 ∨ (0x020 ≤ off ∧ off < 0x100) ∨ 0x180 ≤ off) : accessTarget off size = none := by
  cases htarget : accessTarget off size with
  | none => rfl
  | some r =>
    obtain ⟨hsize, rfl⟩ := accessTarget_eq_some htarget
    have hlegal := r.offset_legal
    exact absurd (h.resolve_left (not_not_intro hsize)) (by omega)

theorem busRead_of_target_none {s : State} {off : Nat} {size : AccessSize} (h : accessTarget off size = none) :
    s.busRead off size = s.raiseAccErr.returnWord 0 := by
  rw [State.busRead, h]

theorem busWrite_of_target_none {s : State} {off : Nat} {size : AccessSize} (v : Word) (h : accessTarget off size = none) :
    s.busWrite off size v = s.raiseAccErr := by
  rw [State.busWrite, h]

theorem busRead_offset (s : State) (r : Reg) :
    s.busRead r.offset .word = if s.blocks r then s.raiseAccErr.returnWord 0 else s.returnWord (s.regValue r) := by
  rw [State.busRead, accessTarget, regAt_offset]

theorem busWrite_offset (s : State) (r : Reg) (v : Word) :
    s.busWrite r.offset .word v = if s.blocks r then s.raiseAccErr else s.writeReg r v := by
  rw [State.busWrite, accessTarget, regAt_offset]

/-- BUSY blocks LEN and the buffers, and no other register (R58). -/
theorem blocks_of_blockable {s : State} {r : Reg} (h : r.blockedWhileBusy = true) : s.blocks r = s.busy := by
  rw [State.blocks, h, Bool.and_true]

theorem blocks_of_not_blockable {s : State} {r : Reg} (h : r.blockedWhileBusy = false) : s.blocks r = false := by
  rw [State.blocks, h, Bool.and_false]

theorem busRead_offset_blockable {s : State} {r : Reg} (h : r.blockedWhileBusy = true) :
    s.busRead r.offset .word = if s.busy then s.raiseAccErr.returnWord 0 else s.returnWord (s.regValue r) := by
  rw [busRead_offset, blocks_of_blockable h]

theorem busWrite_offset_blockable {s : State} {r : Reg} (v : Word) (h : r.blockedWhileBusy = true) :
    s.busWrite r.offset .word v = if s.busy then s.raiseAccErr else s.writeReg r v := by
  rw [busWrite_offset, blocks_of_blockable h]

theorem busRead_offset_unblocked {s : State} {r : Reg} (h : s.blocks r = false) :
    s.busRead r.offset .word = s.returnWord (s.regValue r) := by
  rw [busRead_offset, h, if_neg Bool.false_ne_true]

theorem busWrite_offset_unblocked {s : State} {r : Reg} (v : Word) (h : s.blocks r = false) :
    s.busWrite r.offset .word v = s.writeReg r v := by
  rw [busWrite_offset, h, if_neg Bool.false_ne_true]

/-! The words of STATUS and LSTATE, field by field: a concatenation's value is the high part shifted, plus the low part. -/

theorem toNat_append_eq_add {m n : Nat} (x : BitVec m) (y : BitVec n) : (x ++ y).toNat = x.toNat * 2 ^ n + y.toNat := by
  rw [BitVec.toNat_append, ← Nat.shiftLeft_add_eq_or_of_lt y.isLt, Nat.shiftLeft_eq]

theorem statusWord_toNat (s : State) : s.statusWord.toNat =
    s.busy.toNat + 2 * s.done.toNat + 4 * s.err.toNat + 16 * s.errcode.toNat + 256 * s.cmdlost.toNat + 512 * s.accerr.toNat := by
  simp only [State.statusWord, toNat_append_eq_add, BitVec.toNat_ofBool, BitVec.toNat_ofNat]
  omega

theorem ctrlWord_toNat (s : State) : s.ctrlWord.toNat = s.ie.toNat := by
  simp only [State.ctrlWord, toNat_append_eq_add, BitVec.toNat_ofBool, BitVec.toNat_ofNat]
  omega

theorem lstateWord_toNat (s : State) :
    s.lstateWord.toNat = s.round.toNat + 2 ^ 16 * s.swap.toNat + 2 ^ 17 * s.lact.toNat := by
  simp only [State.lstateWord, toNat_append_eq_add, BitVec.toNat_ofBool, BitVec.toNat_ofNat]
  omega

/-! A buffer word and its four bytes (R54). -/

theorem bufWord_toNat (s : State) (n : Buf) (j : Fin 8) :
    (s.bufWord n j).toNat = ∑ i : Fin 4, (s.getBuf n)[laneIndex j i].toNat * 2 ^ (8 * i.val) := by
  simp only [State.bufWord, toNat_append_eq_add, Fin.sum_univ_four]
  norm_num
  ring

/-- A buffer word depends on its own four bytes only. -/
theorem bufWord_congr {s t : State} {n : Buf} {j : Fin 8}
    (h : ∀ i : Fin 4, (t.getBuf n)[laneIndex j i] = (s.getBuf n)[laneIndex j i]) : t.bufWord n j = s.bufWord n j := by
  simp only [State.bufWord, h]

/-- Word j is digit j of the buffer's value in base 2^32, because byte 4j + i is its digit in base 256. -/
theorem bufWord_eq_digit (s : State) (n : Buf) (j : Fin 8) :
    (s.bufWord n j).toNat = leSum (s.getBuf n) / 2 ^ (32 * j.val) % 2 ^ 32 := by
  have hbyte (i : Fin 4) : (s.getBuf n)[laneIndex j i].toNat = leSum (s.getBuf n) / 2 ^ (32 * j.val) / 2 ^ (8 * i.val) % 256 := by
    have hexp : 32 * j.val + 8 * i.val = 8 * (laneIndex j i).val := by simp only [laneIndex]; omega
    rw [Nat.div_div_eq_div_mul, ← pow_add, hexp, ← le_eq_leSum, le_digit _ _ (laneIndex j i).isLt, Fin.getElem_fin]
  simp only [bufWord_toNat, hbyte, Fin.sum_univ_four]
  generalize leSum (s.getBuf n) / 2 ^ (32 * j.val) = q
  norm_num
  omega

/-- Byte i of a word, byte 0 least significant. -/
def byteOf (v : Word) (i : Nat) : Byte := BitVec.ofNat 8 (v.toNat / 2 ^ (8 * i))

theorem putLane_getElem (v : Word) (j : Fin 8) (i : Fin 4) (b : Bytes32) (k : Fin 32) :
    (putLane v j i b)[k] = if 4 * j.val + i.val = k.val then byteOf v i.val else b[k] := by
  rw [putLane, Fin.getElem_fin, Vector.getElem_set, Nat.shiftRight_eq_div_pow]
  rfl

/-- A written word's four bytes are the word's; every other byte of the buffer stays. -/
theorem getBuf_setBufWord_same (s : State) (n : Buf) (j : Fin 8) (v : Word) (k : Fin 32) :
    ((s.setBufWord n j v).getBuf n)[k] = if k.val / 4 = j.val then byteOf v (k.val % 4) else (s.getBuf n)[k] := by
  rw [State.setBufWord, getBuf_putBuf_same]
  simp only [putLane_getElem]
  by_cases hword : k.val / 4 = j.val
  · have hk : k.val = 4 * j.val + k.val % 4 := by omega
    have hlane : k.val % 4 < 4 := Nat.mod_lt _ (by decide)
    rw [if_pos hword]
    generalize k.val % 4 = i at hk hlane
    interval_cases i <;> simp [hk]
  · have hlane (i : Fin 4) : 4 * j.val + i.val ≠ k.val := by omega
    simp only [hlane, hword, if_false]

theorem getBuf_setBufWord_other (s : State) {n n' : Buf} (j : Fin 8) (v : Word) (h : n' ≠ n) :
    (s.setBufWord n j v).getBuf n' = s.getBuf n' :=
  getBuf_putBuf_other s _ h

theorem laneIndex_div (j : Fin 8) (i : Fin 4) : (laneIndex j i).val / 4 = j.val := by simp only [laneIndex]; omega

theorem laneIndex_mod (j : Fin 8) (i : Fin 4) : (laneIndex j i).val % 4 = i.val := by simp only [laneIndex]; omega

/-- A word's bytes make up the word. -/
theorem sum_byteOf (v : Word) : ∑ i : Fin 4, (byteOf v i.val).toNat * 2 ^ (8 * i.val) = v.toNat := by
  have hlt := v.isLt
  simp only [byteOf, BitVec.toNat_ofNat, Fin.sum_univ_four]
  norm_num
  omega

theorem bufWord_setBufWord_same (s : State) (n : Buf) (j : Fin 8) (v : Word) : (s.setBufWord n j v).bufWord n j = v := by
  refine BitVec.eq_of_toNat_eq ?_
  simp only [bufWord_toNat, getBuf_setBufWord_same, laneIndex_div, laneIndex_mod, if_true, sum_byteOf]

/-- Writing a word changes no other word of any buffer. -/
theorem bufWord_setBufWord_other (s : State) {n n' : Buf} {j j' : Fin 8} (v : Word) (h : (n', j') ≠ (n, j)) :
    (s.setBufWord n j v).bufWord n' j' = s.bufWord n' j' := by
  refine bufWord_congr fun i => ?_
  by_cases hbuf : n' = n
  · subst hbuf
    have hword : j'.val ≠ j.val := fun heq => h (by rw [Fin.ext heq])
    rw [getBuf_setBufWord_same, laneIndex_div, if_neg hword]
  · rw [getBuf_setBufWord_other s j v hbuf]

/-! Buffer words through the bus while the core is idle: one, and several one by one. -/

theorem busRead_word_idle {s : State} (n : Buf) (j : Fin 8) (hidle : s.busy = false) :
    s.busRead (wordOffset n j) .word = s.returnWord (s.bufWord n j) :=
  busRead_offset_unblocked (r := .word n j) ((blocks_of_blockable rfl).trans hidle)

theorem busWrite_word_idle {s : State} (n : Buf) (j : Fin 8) (v : Word) (hidle : s.busy = false) :
    s.busWrite (wordOffset n j) .word v = s.setBufWord n j v :=
  busWrite_offset_unblocked (r := .word n j) v ((blocks_of_blockable rfl).trans hidle)

/-- After writes of the words of a list of indices, the bytes of these words are the written ones. -/
theorem getBuf_foldl_setBufWord (n : Buf) (w : Fin 8 → Word) (js : List (Fin 8)) (s : State) (j : Fin 8) (k : Fin 32)
    (hk : k.val / 4 = j.val) (hj : j ∈ js ∨ (s.getBuf n)[k] = byteOf (w j) (k.val % 4)) :
    ((js.foldl (fun t j => t.setBufWord n j (w j)) s).getBuf n)[k] = byteOf (w j) (k.val % 4) := by
  induction js generalizing s with
  | nil => exact hj.resolve_left List.not_mem_nil
  | cons i is ih =>
    refine ih _ ?_
    by_cases hi : j = i
    · subst hi
      exact .inr (by rw [getBuf_setBufWord_same, if_pos hk])
    · have hother : k.val / 4 ≠ i.val := fun heq => hi (Fin.ext (hk.symm.trans heq))
      rw [getBuf_setBufWord_same, if_neg hother]
      exact hj.imp_left fun hmem => (List.mem_cons.mp hmem).resolve_left hi

theorem foldl_busWrite_eq {s : State} (n : Buf) (w : Fin 8 → Word) (js : List (Fin 8)) (hidle : s.busy = false) :
    js.foldl (fun t j => t.busWrite (wordOffset n j) .word (w j)) s = js.foldl (fun t j => t.setBufWord n j (w j)) s := by
  induction js generalizing s with
  | nil => rfl
  | cons i is ih =>
    rw [List.foldl_cons, List.foldl_cons, busWrite_word_idle n i (w i) hidle]
    exact ih hidle

/-- Byte i of word j of x is byte 4j + i of LE32(x). -/
theorem byteOf_digit (x : Nat) (k : Fin 32) :
    byteOf (BitVec.ofNat 32 (x / 2 ^ (32 * (k.val / 4)))) (k.val % 4) = (le32 x)[k] := by
  have hlane : k.val % 4 < 4 := Nat.mod_lt _ (by decide)
  have hexp : 8 * k.val = 32 * (k.val / 4) + 8 * (k.val % 4) := by omega
  refine BitVec.eq_of_toNat_eq ?_
  rw [Fin.getElem_fin, le32_getElem_toNat, hexp, pow_add, ← Nat.div_div_eq_div_mul, byteOf, BitVec.toNat_ofNat, BitVec.toNat_ofNat]
  generalize x / 2 ^ (32 * (k.val / 4)) = q
  generalize k.val % 4 = i at hlane
  interval_cases i <;> norm_num <;> omega

end Sys2Proof.Machine
end

section
/-! PROOFS. The statements of 20_memory.md settled. -/

namespace Sys2Proof.Machine

open Sys2Proof.Config

/-- Settles O51: each offset is its register's, and each register's value is the sum of its fields. -/
theorem busReadValues : Obligations.BusReadValues := by
  intro s
  refine ⟨busRead_offset_unblocked (r := .cmd) (blocks_of_not_blockable rfl),
    ⟨_, busRead_offset_unblocked (r := .status) (blocks_of_not_blockable rfl), statusWord_toNat s⟩,
    ⟨_, busRead_offset_unblocked (r := .ctrl) (blocks_of_not_blockable rfl), ctrlWord_toNat s⟩,
    ⟨_, busRead_offset_unblocked (r := .lstate) (blocks_of_not_blockable rfl), lstateWord_toNat s⟩,
    fun n => ⟨_, BitVec.toNat_setWidth_of_le (by decide), busRead_offset_blockable (r := .len n) rfl⟩,
    fun n j => ⟨_, bufWord_toNat s n j, busRead_offset_blockable (r := .word n j) rfl⟩⟩

/-- Settles O52: each offset is its register's, and each register's write is its rule of R56. -/
theorem busWriteEffects : Obligations.BusWriteEffects := by
  intro s v
  refine ⟨busWrite_offset_unblocked (r := .cmd) v (blocks_of_not_blockable rfl), ?_,
    busWrite_offset_unblocked (r := .ctrl) v (blocks_of_not_blockable rfl),
    busWrite_offset_unblocked (r := .lstate) v (blocks_of_not_blockable rfl),
    fun n => busWrite_offset_blockable (r := .len n) v rfl, fun n j => ⟨_, getBuf_setBufWord_same s n j v, ?_⟩⟩
  · have hclear (a c : Bool) : (if c then false else a) = (a && !c) := by cases c <;> simp
    simp only [hclear]
    exact busWrite_offset_unblocked (r := .status) v (blocks_of_not_blockable rfl)
  · rw [State.setBufWord, getBuf_putBuf_same]
    exact busWrite_offset_blockable (r := .word n j) v rfl

/-- Settles O53: an illegal access reaches no register. -/
theorem illegalAccessOnlySetsAccerr : Obligations.IllegalAccessOnlySetsAccerr := by
  intro s off size v _ hillegal
  have hnone := accessTarget_eq_none hillegal
  exact ⟨busRead_of_target_none hnone, busWrite_of_target_none v hnone⟩

/-- Settles O54: the words are digits of the buffer's value, and a write of all eight sets every byte. -/
theorem bufferWordsAreLittleEndianLanes : Obligations.BufferWordsAreLittleEndianLanes := by
  intro s n hidle
  constructor
  · intro j v
    rw [busRead_word_idle n j hidle, busWrite_word_idle n j v hidle, busRead_word_idle n j (s := s.setBufWord n j v) hidle,
      bufWord_setBufWord_same]
    exact ⟨bufWord_eq_digit s n j, rfl, rfl, fun n' j' hne => bufWord_setBufWord_other s v hne, rfl⟩
  · intro x _
    rw [foldl_busWrite_eq n _ _ hidle]
    refine Vector.ext fun k hk => ?_
    have hword := getBuf_foldl_setBufWord n (fun j => BitVec.ofNat 32 (x / 2 ^ (32 * j.val))) (List.finRange 8) s
      ⟨k / 4, by omega⟩ ⟨k, hk⟩ rfl (.inl (List.mem_finRange _))
    exact hword.trans (byteOf_digit x ⟨k, hk⟩)

/-- Settles O42: a completion is the decoded command. -/
theorem stepRunsDecodedInstruction : Obligations.StepRunsDecodedInstruction := by
  intro s i hnext hbusy hdecode
  rw [step_of_coreTurn hnext hbusy]
  exact complete_of_ok hdecode

/-- Settles O50: the step is the host access, by its two cases of R51. -/
theorem hostAccessReachesWindowOnly : Obligations.HostAccessReachesWindowOnly := by
  intro s a hnext hreleased
  refine ⟨fun off hoff haddr => ?_, fun hout => ?_⟩
  · have haccess : s.popEvent.hostAccess a = s.popEvent.windowAccess off a.size a.op := by
      rw [← hostAccess_base_add s.popEvent hoff, ← haddr]
    rw [step_of_host hnext, haccess]
    refine ⟨fun hop => ?_, fun v hop => ?_⟩ <;> rw [hop, State.windowAccess, State.popEvent_inReset, hreleased]
    · rfl
    · rfl
  · obtain ⟨_, haccess⟩ | ⟨hin, _⟩ := hostAccess_cases s.popEvent a
    · rw [step_of_host hnext, haccess, State.popEvent]
    · obtain ⟨hlow, hhigh⟩ := inWindow_iff.mp hin
      omega

end Sys2Proof.Machine
end

section
/-! PROOFS. The row masks of 30_encoding.md R84, field by field (R81, R82): a row matches exactly the words of its opcode whose fields pass the check of R86, and its command's fields are the word's. -/

namespace Sys2Proof

/-! A word and its fields. -/

/-- The fields of R81 cover the word's 32 bits. -/
theorem toNat_eq_fields (w : Word) :
    w.toNat = (fieldsOf w).op + (fieldsOf w).d * 2 ^ 8 + (fieldsOf w).a * 2 ^ 12 + (fieldsOf w).b * 2 ^ 16 +
      (fieldsOf w).s * 2 ^ 20 + (fieldsOf w).rsv * 2 ^ 21 := by
  have hw : w.toNat < 2 ^ 32 := w.isLt
  simp only [fieldsOf, bitsOf, Nat.shiftRight_eq_div_pow]
  omega

theorem fieldsOf_injective : Function.Injective fieldsOf := fun v w h =>
  BitVec.eq_of_toNat_eq (by rw [toNat_eq_fields v, h, ← toNat_eq_fields w])

/-- Each field is below 2 to its width. -/
theorem fieldsOf_lt (w : Word) : (fieldsOf w).op < 2 ^ 8 ∧ (fieldsOf w).d < 2 ^ 4 ∧ (fieldsOf w).a < 2 ^ 4 ∧
    (fieldsOf w).b < 2 ^ 4 ∧ (fieldsOf w).s < 2 ^ 1 ∧ (fieldsOf w).rsv < 2 ^ 11 := by
  refine ⟨?_, ?_, ?_, ?_, ?_, ?_⟩ <;> exact Nat.mod_lt _ (by decide)

/-- The bitwise and, field by field. -/
def Fields.and (x y : Fields) : Fields :=
  ⟨x.op &&& y.op, x.d &&& y.d, x.a &&& y.a, x.b &&& y.b, x.s &&& y.s, x.rsv &&& y.rsv⟩

theorem fieldsOf_and (v w : Word) : fieldsOf (v &&& w) = (fieldsOf v).and (fieldsOf w) := by
  simp only [fieldsOf, bitsOf, Fields.and, BitVec.toNat_and, Nat.shiftRight_and_distrib, Nat.and_mod_two_pow]

/-! The mask a shape asks for. -/

/-- The bits of a D, A or B field that an operand of this kind leaves 0 (R82). -/
def OperandKind.zeroBits : OperandKind → Nat
  | .freg => 0
  | .buffer => 0b1100
  | .none => 0b1111

theorem and_zeroBits_eq_zero_iff (k : OperandKind) : ∀ {v : Nat}, v < 2 ^ 4 → (v &&& k.zeroBits = 0 ↔ k.fits v = true) := by
  cases k <;> decide

/-- The mask of a row, field by field, from the shape of its opcode. -/
def Shape.mask (sh : Shape) : Fields := ⟨0xFF, sh.d.zeroBits, sh.a.zeroBits, sh.b.zeroBits, (!sh.s).toNat, 0x7FF⟩

/-- The OP value a row fixes. -/
def OpRow.op (r : OpRow) : Nat := (fieldsOf r.pattern).op

/-- R84's masks are those of the shapes, and its patterns fix nothing but OP. -/
theorem row_mask_pattern : ∀ r ∈ opRows,
    (shapeOf r.op).map Shape.mask = some (fieldsOf r.mask) ∧ fieldsOf r.pattern = ⟨r.op, 0, 0, 0, 0, 0⟩ := by
  decide

/-- The check of R86, passed. -/
theorem Fields.wf_iff (x : Fields) : x.wf = true ↔ ∃ sh, shapeOf x.op = some sh ∧ x.rsv = 0 ∧ (sh.s = true ∨ x.s = 0) ∧
    sh.d.fits x.d = true ∧ sh.a.fits x.a = true ∧ sh.b.fits x.b = true := by
  constructor
  · intro h
    rw [Fields.wf, Option.isNone_iff_eq_none, Fields.illegal] at h
    split at h
    case h_1 => cases h
    case h_2 sh hsh =>
      split_ifs at h with hrsv hunused hs hfits
      simp only [Bool.and_eq_true, and_assoc] at hfits
      rw [not_and_or, Bool.not_eq_false, not_not] at hs
      exact ⟨sh, hsh, not_not.mp hrsv, hs, hfits⟩
  · rintro ⟨sh, hop, hrsv, hs, hd, ha, hb⟩
    exact Laws.WordLayout.wf_of_fits hop hrsv hs hd ha hb

theorem and_sMask_eq_zero_iff (c : Bool) : ∀ {v : Nat}, v < 2 ^ 1 → (v &&& (!c).toNat = 0 ↔ c = true ∨ v = 0) := by
  cases c <;> decide

/-- A row matches exactly the words of its opcode whose fields pass the check. -/
theorem OpRow.matches_iff {r : OpRow} (hr : r ∈ opRows) (w : Word) :
    r.matches w = true ↔ (fieldsOf w).op = r.op ∧ (fieldsOf w).wf = true := by
  obtain ⟨hmask, hpattern⟩ := row_mask_pattern r hr
  obtain ⟨sh, hshape, hmask⟩ := Option.map_eq_some_iff.mp hmask
  obtain ⟨hop, hd, ha, hb, hs, hrsv⟩ := fieldsOf_lt w
  have hfields : r.matches w = true ↔ (fieldsOf w).op = r.op ∧
      sh.d.fits (fieldsOf w).d = true ∧ sh.a.fits (fieldsOf w).a = true ∧ sh.b.fits (fieldsOf w).b = true ∧
      (sh.s = true ∨ (fieldsOf w).s = 0) ∧ (fieldsOf w).rsv = 0 := by
    rw [OpRow.matches, beq_iff_eq, ← fieldsOf_injective.eq_iff, fieldsOf_and, ← hmask, hpattern, Fields.and, Shape.mask,
      Fields.mk.injEq, and_zeroBits_eq_zero_iff _ hd, and_zeroBits_eq_zero_iff _ ha, and_zeroBits_eq_zero_iff _ hb,
      and_sMask_eq_zero_iff _ hs, Nat.and_two_pow_sub_one_of_lt_two_pow (n := 8) hop,
      Nat.and_two_pow_sub_one_of_lt_two_pow (n := 11) hrsv]
  rw [hfields, Fields.wf_iff]
  refine and_congr_right fun heq => ?_
  rw [heq, hshape]
  simp only [Option.some.injEq, exists_eq_left']
  tauto

/-! The command a row builds. -/

/-- What the decoder reads of a D, A or B field of this kind that begins at bit `lo` (R82). -/
def OperandKind.readAt (k : OperandKind) (w : Word) (lo : Nat) : Nat :=
  match k with
  | .freg => fregAt w lo
  | .buffer => bufAt w lo
  | .none => 0

/-- A field that fits its kind is read whole: the bits the decoder skips are 0. -/
theorem readAt_eq_of_fits {k : OperandKind} {v lo : Nat} {w : Word} (hv : v = (w.toNat >>> lo) % 2 ^ 4) (h : k.fits v = true) :
    k.readAt w lo = v := by
  cases k with
  | freg => exact hv.symm
  | buffer =>
    have hlt : v < 4 := of_decide_eq_true h
    simp only [OperandKind.readAt, bufAt, Fin.val_ofNat]
    omega
  | none => exact (eq_of_beq h).symm

theorem toNat_getLsbD_20 (w : Word) : (w.getLsbD 20).toNat = (fieldsOf w).s := by
  rw [BitVec.getLsbD, Nat.toNat_testBit, ← Nat.shiftRight_eq_div_pow]
  rfl

/-- Where S may not be set it is 0, so nothing is lost by not reading it (R83). -/
theorem and_getLsbD_20 {c : Bool} {w : Word} (h : c = true ∨ (fieldsOf w).s = 0) : (c && w.getLsbD 20).toNat = (fieldsOf w).s := by
  rw [← toNat_getLsbD_20] at h ⊢
  rcases h with hc | hs
  · rw [hc, Bool.true_and]
  · rw [Bool.toNat_eq_zero.mp hs, Bool.and_false]

/-- The fields the decoder reads of a word, by the shape of its opcode. -/
def Shape.read (sh : Shape) (op : Nat) (w : Word) : Fields :=
  ⟨op, sh.d.readAt w 8, sh.a.readAt w 12, sh.b.readAt w 16, (sh.s && w.getLsbD 20).toNat, 0⟩

/-- Each row of R84 builds its command from what its shape reads. -/
theorem row_build (w : Word) : ∀ r ∈ opRows, (shapeOf r.op).map (fun sh => sh.read r.op w) = some (r.build w).fields :=
  List.map_inj_left.mp rfl

/-- A command is built with all the fields of its word. -/
theorem OpRow.build_fields {r : OpRow} (hr : r ∈ opRows) {w : Word} (hmatch : r.matches w = true) :
    (r.build w).fields = fieldsOf w := by
  obtain ⟨hop, hwf⟩ := (OpRow.matches_iff hr w).mp hmatch
  obtain ⟨sh, hshape, hrsv, hs, hd, ha, hb⟩ := (Fields.wf_iff _).mp hwf
  have hbuild : sh.read r.op w = (r.build w).fields := by
    have h := row_build w r hr
    rwa [← hop, hshape, hop, Option.map_some, Option.some.injEq] at h
  rw [← hbuild, Shape.read, readAt_eq_of_fits (v := (fieldsOf w).d) rfl hd, readAt_eq_of_fits (v := (fieldsOf w).a) rfl ha,
    readAt_eq_of_fits (v := (fieldsOf w).b) rfl hb, and_getLsbD_20 hs, ← hop, ← hrsv]

/-! The row of a command. -/

/-- The row of an OP value. -/
def rowOf (op : Nat) : Option OpRow := opRows.find? (fun r => op == r.op)

/-- Every opcode that has a shape has a row. -/
theorem rowOf_isSome {op : Nat} (h : (shapeOf op).isSome = true) : (rowOf op).isSome = true := by
  unfold shapeOf at h
  split at h
  case h_17 => cases h
  all_goals rfl

theorem fregAt_of_field {w : Word} {lo : Nat} {r : FReg} (h : (w.toNat >>> lo) % 2 ^ 4 = r) : fregAt w lo = r := Fin.ext h

theorem bufAt_of_field {w : Word} {lo : Nat} {n : Buf} (h : (w.toNat >>> lo) % 2 ^ 4 = n) : bufAt w lo = n :=
  Fin.ext (by simp only [bufAt, Fin.val_ofNat]; omega)

/-- A row builds the command whose fields are the word's, each operand from its own field. -/
theorem rowOf_command {w : Word} {i : Instr} (h : fieldsOf w = i.fields) : ∃ r, rowOf i.fields.op = some r ∧ r.build w = i := by
  have hd : (fieldsOf w).d = i.fields.d := congrArg Fields.d h
  have ha : (fieldsOf w).a = i.fields.a := congrArg Fields.a h
  have hb : (fieldsOf w).b = i.fields.b := congrArg Fields.b h
  have hs : (fieldsOf w).s = i.fields.s := congrArg Fields.s h
  cases i with
  | fadd fd fa fb => exact ⟨_, rfl, congr (congrArg₂ Instr.fadd (fregAt_of_field hd) (fregAt_of_field ha)) (fregAt_of_field hb)⟩
  | fsub fd fa fb => exact ⟨_, rfl, congr (congrArg₂ Instr.fsub (fregAt_of_field hd) (fregAt_of_field ha)) (fregAt_of_field hb)⟩
  | fmul fd fa fb => exact ⟨_, rfl, congr (congrArg₂ Instr.fmul (fregAt_of_field hd) (fregAt_of_field ha)) (fregAt_of_field hb)⟩
  | finv fd fa => exact ⟨_, rfl, congrArg₂ Instr.finv (fregAt_of_field hd) (fregAt_of_field ha)⟩
  | fcswap fa fb c =>
    have hc : w.getLsbD 20 = c := by
      rw [← Bool.ofNat_toNat (w.getLsbD 20), toNat_getLsbD_20, hs]
      exact Bool.ofNat_toNat c
    exact ⟨_, rfl, congr (congrArg₂ Instr.fcswap (fregAt_of_field ha) (fregAt_of_field hb)) hc⟩
  | decu fd bn => exact ⟨_, rfl, congrArg₂ Instr.decu (fregAt_of_field hd) (bufAt_of_field ha)⟩
  | enc bn fa => exact ⟨_, rfl, congrArg₂ Instr.enc (bufAt_of_field hd) (fregAt_of_field ha)⟩
  | clamp bn => exact ⟨_, rfl, congrArg Instr.clamp (bufAt_of_field ha)⟩
  | kldr bn => exact ⟨_, rfl, congrArg Instr.kldr (bufAt_of_field ha)⟩
  | kenc bn => exact ⟨_, rfl, congrArg Instr.kenc (bufAt_of_field hd)⟩
  | linit fa => exact ⟨_, rfl, congrArg Instr.linit (fregAt_of_field ha)⟩
  | lstep => exact ⟨_, rfl, rfl⟩
  | lfin fd => exact ⟨_, rfl, congrArg Instr.lfin (fregAt_of_field hd)⟩
  | ladder fd fa => exact ⟨_, rfl, congrArg₂ Instr.ladder (fregAt_of_field hd) (fregAt_of_field ha)⟩
  | x25519 bo bk bu => exact ⟨_, rfl, congr (congrArg₂ Instr.x25519 (bufAt_of_field hd) (bufAt_of_field ha)) (bufAt_of_field hb)⟩
  | basemul bo bk => exact ⟨_, rfl, congrArg₂ Instr.basemul (bufAt_of_field hd) (bufAt_of_field ha)⟩

/-! Decoding as a question about fields. -/

theorem fieldsOf_encode (i : Instr) : fieldsOf (encode i) = i.fields := (Laws.WordLayout.statement_holds i).1

theorem Instr.wf_eq_true (i : Instr) : i.wf = true := (Laws.WordLayout.statement_holds i).2

/-- When the fields pass the check, the row that matches is the row of the word's OP value. -/
theorem find_matches_of_wf {w : Word} (h : (fieldsOf w).wf = true) :
    opRows.find? (fun r => r.matches w) = rowOf (fieldsOf w).op := by
  refine List.find?_congr fun (r : OpRow) hr => ?_
  rw [Bool.eq_iff_iff, OpRow.matches_iff hr, beq_iff_eq, and_iff_left h]

/-- A word decodes to the command that has its fields, and to no other. -/
theorem decode_eq_ok_iff {w : Word} {i : Instr} : decode w = .ok i ↔ fieldsOf w = i.fields := by
  constructor
  · intro h
    rw [decode] at h
    split at h
    case h_1 r hfind =>
      cases h
      have hmatch : r.matches w = true := List.find?_some (p := (OpRow.matches · w)) hfind
      exact (OpRow.build_fields (List.mem_of_find?_eq_some hfind) hmatch).symm
    case h_2 => cases h
  · intro h
    have hwf : (fieldsOf w).wf = true := h ▸ i.wf_eq_true
    obtain ⟨r, hrow, hbuild⟩ := rowOf_command h
    rw [decode, find_matches_of_wf hwf, h, hrow, ← hbuild]

/-- A word decodes if and only if its fields pass the check. -/
theorem exists_decode_iff_wf (w : Word) : (∃ i, decode w = .ok i) ↔ (fieldsOf w).wf = true := by
  constructor
  · rintro ⟨i, hi⟩
    rw [decode_eq_ok_iff.mp hi]
    exact i.wf_eq_true
  · intro h
    obtain ⟨sh, hshape, -⟩ := (Fields.wf_iff _).mp h
    obtain ⟨r, hrow⟩ := Option.isSome_iff_exists.mp (rowOf_isSome (Option.isSome_of_mem hshape))
    exact ⟨r.build w, by rw [decode, find_matches_of_wf h, hrow]⟩

/-- The decoder has one name for a rejection. -/
theorem error_eq_whyIllegal {w : Word} {r : Illegal} (h : decode w = .error r) : r = whyIllegal w := by
  rw [decode] at h
  split at h
  case h_1 => cases h
  case h_2 => cases h; rfl

/-- A word that does not decode is rejected under the first reason its fields give. -/
theorem decode_eq_error_iff {w : Word} {r : Illegal} : decode w = .error r ↔ (fieldsOf w).illegal = some r := by
  cases hdecode : decode w with
  | ok i =>
    have hwf := (exists_decode_iff_wf w).mp ⟨i, hdecode⟩
    rw [Fields.wf, Option.isNone_iff_eq_none] at hwf
    simp [hwf]
  | error r' =>
    have hwf : (fieldsOf w).wf ≠ true := fun h => by
      obtain ⟨i, hi⟩ := (exists_decode_iff_wf w).mpr h
      cases hdecode.symm.trans hi
    cases hreason : (fieldsOf w).illegal with
    | none => exact absurd (Option.isNone_iff_eq_none.mpr hreason) hwf
    | some reason =>
      rw [error_eq_whyIllegal hdecode, whyIllegal, hreason, Option.getD_some, Except.error.injEq, Option.some.injEq]

end Sys2Proof
end

section
/-! PROOFS. The statements of 30_encoding.md settled. -/

namespace Sys2Proof

/-- Settles O1: an encoded command's word has the command's fields, and the decoder finds a command by its fields. -/
theorem decodeOfEncodeIsTheCommand : Obligations.DecodeOfEncodeIsTheCommand :=
  fun i _ => decode_eq_ok_iff.mpr (fieldsOf_encode i)

/-- Settles O2: the word and the encoding have the same fields, and the fields determine the word. -/
theorem encodeOfDecodeIsTheWord : Obligations.EncodeOfDecodeIsTheWord := by
  intro w i h
  have hfields : fieldsOf w = i.fields := decode_eq_ok_iff.mp h
  exact ⟨i.wf_eq_true, fieldsOf_injective ((fieldsOf_encode i).trans hfields.symm)⟩

/-- Settles O3: decoding, and rejection, are questions about the fields. -/
theorem decodeAgreesWithFieldCheck : Obligations.DecodeAgreesWithFieldCheck := fun w =>
  ⟨fun _ => decode_eq_ok_iff.mp, exists_decode_iff_wf w, fun _ => decode_eq_error_iff⟩

/-- Settles O4: rows that match a word have its OP value, and the rows' OP values are distinct. -/
theorem atMostOneRowMatches : Obligations.AtMostOneRowMatches := by
  intro w
  have hnodup : ((opRows.filter (fun r => r.matches w)).map OpRow.op).Nodup :=
    (List.filter_sublist.map OpRow.op).nodup (by decide)
  have hop : ∀ n ∈ (opRows.filter (fun r => r.matches w)).map OpRow.op, n = (fieldsOf w).op := by
    intro n hn
    obtain ⟨r, hr, rfl⟩ := List.mem_map.mp hn
    obtain ⟨hmem, hmatch⟩ := List.mem_filter.mp hr
    exact ((OpRow.matches_iff hmem w).mp hmatch).1.symm
  rwa [List.eq_replicate_of_mem hop, List.nodup_replicate, List.length_map] at hnodup

/-- Settles O5: each printed word has the fields of the command beside it. -/
theorem printedWordsDecode : Obligations.PrintedWordsDecode := by
  unfold Obligations.PrintedWordsDecode
  simp only [decode_eq_ok_iff]
  decide

end Sys2Proof
end

section
/-! PROOFS. The field operations on reduced operands as case distinctions (40_field_arithmetic.md R101, R102), the bound of a product (R103), and a completion that writes field registers. -/

namespace Sys2Proof.Machine

open Sys2Proof.Config

/-- A sum of reduced numbers needs at most one subtraction of p (R101). -/
theorem fadd_eq_ite {a b : Nat} (ha : a < P) (hb : b < P) : fadd a b = if a + b < P then a + b else a + b - P := by
  rw [fadd_eq_mod]
  split
  next hlt => exact Nat.mod_eq_of_lt hlt
  next hge => rw [Nat.mod_eq_sub_mod (not_lt.mp hge), Nat.mod_eq_of_lt (by omega)]

/-- A negative difference of reduced numbers needs one addition of p (R102). -/
theorem fsub_eq_ite {a b : Nat} (ha : a < P) (hb : b < P) : fsub a b = if b ≤ a then a - b else a + P - b := by
  refine (modp_eq_iff _ _).mpr ?_
  split
  next hle =>
    refine ⟨by omega, ?_⟩
    rw [Nat.cast_sub hle]
  next hborrow =>
    have hcast : ((a + P - b : Nat) : Int) = (a : Int) - b + P := by omega
    refine ⟨by omega, ?_⟩
    rw [hcast]
    exact Int.add_modEq_right

/-- The exact product of reduced numbers is below p² (R103). -/
theorem mul_lt_P_sq {a b : Nat} (ha : a < P) (hb : b < P) : a * b < P ^ 2 :=
  (Nat.mul_lt_mul'' ha hb).trans_eq (sq P).symm

theorem P_sq_lt_two_pow : P ^ 2 < 2 ^ 510 := by
  rw [show 510 = 255 * 2 from rfl, pow_mul]
  exact Nat.pow_lt_pow_left P_lt_two_pow two_ne_zero

theorem finv_eq_mod (a : Nat) : finv a = a ^ (P - 2) % P := by
  rw [finv_eq_modp, ← Nat.cast_pow, modp_natCast]

/-- The word of a command decodes to it. -/
theorem decode_encode (i : Instr) : decode (encode i) = .ok i := decode_eq_ok_iff.mpr (fieldsOf_encode i)

/-- A command whose rule writes one field register completes with that register and STATUS changed, and nothing else. -/
theorem exec_of_setF {i : Instr} {s : State} {fd : FReg} {v : Nat} (hnone : commandError i s = none)
    (hbody : commandBody i s = s.setF fd v) :
    exec i s = .next
      { s with f := s.f.set fd.val v fd.isLt, busy := false, done := true, err := false, errcode := 0 } := by
  rw [exec_of_noError hnone, hbody]; rfl

/-- A register written with its own value changes nothing. -/
theorem setF_getF_self (s : State) (r : FReg) : s.setF r (s.getF r) = s := by
  have hf : s.f.set r.val s.f[r.val] r.isLt = s.f := Vector.set_getElem_self r.isLt
  rw [State.setF, State.getF, Fin.getElem_fin, hf]

/-- What FCSWAP writes from reduced registers: the exchange, or nothing (R105). -/
theorem commandBody_fcswap {s : State} (fa fb : FReg) (c : Bool) (h : s.reduced) :
    commandBody (.fcswap fa fb c) s = if c then (s.setF fa (s.getF fb)).setF fb (s.getF fa) else s := by
  have hlt (r : FReg) : s.getF r < 2 ^ 256 := (h r).trans (P_lt_two_pow.trans (by decide))
  rw [commandBody, cswap_eq c (hlt fa) (hlt fb)]
  cases c with
  | true => rfl
  | false => exact (congrArg (State.setF fb (s.getF fb)) (setF_getF_self s fa)).trans (setF_getF_self s fb)

end Sys2Proof.Machine
end

section
/-! PROOFS. The statements of 40_field_arithmetic.md settled. -/

namespace Sys2Proof.Machine

open Sys2Proof.Config

/-- Settles O6: one register is written, with the sum reduced by at most one subtraction. -/
theorem faddAddsModuloP : Obligations.FaddAddsModuloP := by
  intro fd fa fb s h
  refine ⟨decode_encode (.fadd fd fa fb), ?_⟩
  rw [← fadd_eq_ite (h fa) (h fb)]
  exact exec_of_setF rfl rfl

/-- Settles O7: one register is written, with the difference corrected by at most one addition. -/
theorem fsubSubtractsModuloP : Obligations.FsubSubtractsModuloP := by
  intro fd fa fb s h
  refine ⟨decode_encode (.fsub fd fa fb), ?_⟩
  rw [← fsub_eq_ite (h fa) (h fb)]
  exact exec_of_setF rfl rfl

/-- Settles O8: one register is written, with the remainder of the exact product. -/
theorem fmulMultipliesModuloP : Obligations.FmulMultipliesModuloP := by
  intro fd fa fb s
  refine ⟨decode_encode (.fmul fd fa fb), ?_, fun h => ⟨mul_lt_P_sq (h fa) (h fb), P_sq_lt_two_pow⟩⟩
  rw [← fmul_eq_mod]
  exact exec_of_setF rfl rfl

/-- Settles O9: one register is written, with the model's chain as a power; p is prime, so the power is the inverse. -/
theorem finvIsFermatPower : Obligations.FinvIsFermatPower := by
  intro fd fa s
  rw [← finv_eq_mod, ← fmul_eq_mod]
  exact ⟨decode_encode (.finv fd fa), exec_of_setF rfl rfl, fun h => fmul_finv (h fa)⟩

/-- Settles O10: the mask form exchanges values below 2^256, and writing back both values changes no register. -/
theorem fcswapExchangesOnCondition : Obligations.FcswapExchangesOnCondition := by
  intro fa fb c s h
  refine ⟨decode_encode (.fcswap fa fb c), ?_⟩
  rw [exec_of_noError rfl, commandBody_fcswap fa fb c h]
  cases c with
  | true => rfl
  | false => rfl

end Sys2Proof.Machine
end

section
/-! PROOFS. decode_u and clamp as values (41_codec.md R131, R133): a byte sequence bit by bit, the one subtraction that reduces a masked value, and clamping as a change of bits 0, 1, 2, 254 and 255. -/

namespace Sys2Proof.Machine

open Sys2Proof.Config

/-! Bits of a value and of its bytes (00_scope.md R12). -/

/-- Bit 8i + b of LE(v) is bit b of byte i. -/
theorem le_testBit (v : Bytes32) {i b : Nat} (hi : i < 32) (hb : b < 8) : (le v).testBit (8 * i + b) = v[i].getLsbD b := by
  rw [BitVec.getLsbD, ← le_digit v i hi, show 256 = 2 ^ 8 from rfl, Nat.testBit_mod_two_pow, Nat.testBit_div_two_pow,
    decide_eq_true hb, Bool.true_and, Nat.add_comm]

theorem leSum_le32 {x : Nat} (h : x < 2 ^ 256) : leSum (le32 x) = x := by
  rw [← le_eq_leSum, le_le32 h]

theorem le32_leSum (v : Bytes32) : le32 (leSum v) = v := by
  rw [← le_eq_leSum, le32_le]

/-- A value below 2^255 has bit 7 of byte 31 clear. -/
theorem byte31_msb_of_lt {v : Bytes32} : leSum v < 2 ^ 255 → v[31].getLsbD 7 = false := by
  intro h
  rw [← le_testBit v (by decide) (by decide), le_eq_leSum]
  exact Nat.testBit_lt_two_pow h

/-! decode_u (R131). -/

theorem two_pow_eq_P_add : 2 ^ 255 = P + 19 := by decide +kernel

theorem lt_two_pow_of_lt_P {x : Nat} (h : x < P) : x < 2 ^ 256 := h.trans (P_lt_two_pow.trans (by decide))

theorem decodeU_eq (v : Bytes32) : decodeU v = leSum v % 2 ^ 255 % P := by
  rw [decodeU, modp_natCast, le_eq_leSum]

theorem decodeU_lt (v : Bytes32) : decodeU v < P := modp_lt _

/-- A canonical encoding decodes to its own value. -/
theorem decodeU_of_canonical {v : Bytes32} (h : leSum v < P) : decodeU v = leSum v := by
  rw [decodeU_eq, Nat.mod_eq_of_lt (h.trans P_lt_two_pow), Nat.mod_eq_of_lt h]

/-- Only 19 values below 2^255 are not reduced, and one subtraction of p reduces them. -/
theorem mod_P_of_ge {x : Nat} (hlt : x < 2 ^ 255) (hge : P ≤ x) : x % P = x - P ∧ x - P < 19 := by
  rw [two_pow_eq_P_add] at hlt
  have hsub : x - P < 19 := by omega
  exact ⟨by rw [Nat.mod_eq_sub_mod hge, Nat.mod_eq_of_lt (hsub.trans (by decide +kernel))], hsub⟩

/-- The mask 0x7F keeps every bit of a byte but bit 7. -/
theorem getLsbD_and_7F (x : Byte) {b : Nat} (hb : b < 7) : (x &&& 0x7F#8).getLsbD b = x.getLsbD b := by
  have hmask : ∀ c : Fin 7, (0x7F#8).getLsbD c.val = true := by decide
  rw [BitVec.getLsbD_and, hmask ⟨b, hb⟩, Bool.and_true]

/-- Bit 7 of byte 31 is above the 255 bits that decode_u reads. -/
theorem le_mod_clear_bit255 (v : Bytes32) : le (v.set 31 (v[31] &&& 0x7F#8)) % 2 ^ 255 = le v % 2 ^ 255 := by
  refine Nat.eq_of_testBit_eq fun j => ?_
  rw [Nat.testBit_mod_two_pow, Nat.testBit_mod_two_pow]
  by_cases hj : j < 255
  · have hbyte : j / 8 < 32 := by omega
    have hbit : j % 8 < 8 := Nat.mod_lt j (by decide)
    rw [← Nat.div_add_mod j 8, le_testBit _ hbyte hbit, le_testBit _ hbyte hbit, Vector.getElem_set]
    split
    next hlast =>
      simp only [← hlast]
      rw [getLsbD_and_7F _ (by omega)]
    next => rfl
  · rw [decide_eq_false hj, Bool.false_and, Bool.false_and]

theorem decodeU_clear_bit255 (v : Bytes32) : decodeU (v.set 31 (v[31] &&& 0x7F#8)) = decodeU v := by
  rw [decodeU, decodeU, le_mod_clear_bit255]

/-! clamp (R133, R135). -/

theorem clampBytes_getElem (v : Bytes32) {i : Nat} (hi : i < 32) :
    (clampBytes v)[i] =
      if i = 0 then v[i] &&& 0xF8#8 else if i = 31 then (v[i] &&& 0x7F#8) ||| 0x40#8 else v[i] := by
  by_cases hfirst : i = 0
  · subst hfirst; simp [clampBytes]
  · by_cases hlast : i = 31
    · subst hlast; simp [clampBytes]
    · simp [clampBytes, hfirst, hlast, Ne.symm hfirst, Ne.symm hlast]

/-- The bits of the clamped bytes: 0, 1, 2 and 255 are clear, 254 is set, the others are the input's. -/
theorem clampBytes_getLsbD (v : Bytes32) {i b : Nat} (hi : i < 32) (hb : b < 8) :
    (clampBytes v)[i].getLsbD b =
      if i = 0 ∧ b < 3 then false
      else if i = 31 ∧ b = 7 then false
      else if i = 31 ∧ b = 6 then true
      else v[i].getLsbD b := by
  have hmask : ∀ c : Fin 8, (0xF8#8).getLsbD c.val = !decide (c.val < 3) ∧ (0x7F#8).getLsbD c.val = !decide (c.val = 7) ∧
      (0x40#8).getLsbD c.val = decide (c.val = 6) := by decide
  obtain ⟨hF8, h7F, h40⟩ := hmask ⟨b, hb⟩
  rw [clampBytes_getElem v hi]
  by_cases hfirst : i = 0
  · simp [hfirst, hF8, Bool.and_comm]
  · by_cases hlast : i = 31
    · by_cases hmsb : b = 7
      · simp [hlast, hmsb]
      · simp [hlast, h7F, h40, hmsb, Bool.or_comm]
    · simp [hfirst, hlast]

/-- Clamping clamped bytes changes nothing. -/
theorem clampBytes_idem (v : Bytes32) : clampBytes (clampBytes v) = clampBytes v := by
  refine Vector.ext fun i hi => BitVec.eq_of_getLsbD_eq fun b hb => ?_
  rw [clampBytes_getLsbD _ hi hb, clampBytes_getLsbD _ hi hb]
  split_ifs <;> rfl

theorem clampValue_lt_two_pow_256 (v : Bytes32) : clampValue v < 2 ^ 256 := le_lt _

theorem le32_clampValue (v : Bytes32) : le32 (clampValue v) = clampBytes v := le32_le _

theorem clampValue_le32_clampValue (v : Bytes32) : clampValue (le32 (clampValue v)) = clampValue v := by
  rw [le32_clampValue, clampValue, clampBytes_idem, clampValue]

/-- The clamped byte 0 is a multiple of 8, and the clamped byte 31 is 64 to 127. -/
theorem clamped_byte_bounds (x : Byte) :
    (x &&& 0xF8#8).toNat % 8 = 0 ∧ 64 ≤ ((x &&& 0x7F#8) ||| 0x40#8).toNat ∧ ((x &&& 0x7F#8) ||| 0x40#8).toNat < 128 := by
  decide +revert

theorem eight_dvd_clampValue (v : Bytes32) : 8 ∣ clampValue v := by
  have hdigit := le_digit (clampBytes v) 0 (by decide)
  have hbyte := (clamped_byte_bounds v[0]).1
  rw [clampBytes_getElem v (by decide), if_pos rfl, ← clampValue] at hdigit
  omega

theorem clampValue_bounds (v : Bytes32) : 2 ^ 254 ≤ clampValue v ∧ clampValue v < 2 ^ 255 := by
  have hdigit := le_digit (clampBytes v) 31 (by decide)
  obtain ⟨-, hlow, hhigh⟩ := clamped_byte_bounds v[31]
  have hlt := clampValue_lt_two_pow_256 v
  rw [clampBytes_getElem v (by decide), if_neg (by decide), if_pos rfl, ← clampValue] at hdigit
  omega

end Sys2Proof.Machine
end

section
/-! PROOFS. The codec commands (41_codec.md R130, R132, R134, R136 to R139): a command with one input buffer completes or rejects its length, and what each command leaves in K or in a buffer. -/

namespace Sys2Proof.Machine

open Sys2Proof.Config

/-- A command with one input buffer raises an error exactly when that buffer's length is not 32 (R130). -/
theorem commandError_of_input {i : Instr} {bn : Buf} (s : State) (hin : inputBuffers i = [bn]) :
    commandError i s = if s.getLen bn = 32#6 then none else some .invalidLength := by
  by_cases h : s.getLen bn = 32#6
  · have hlengths : ¬ ∃ n ∈ inputBuffers i, s.getLen n ≠ 32#6 := by simp [hin, h]
    rw [if_pos h]
    cases i with
    | lstep | lfin _ => nomatch hin
    | _ => exact if_neg hlengths
  · rw [if_neg h]
    exact if_pos (by simp [hin, h])

theorem exec_of_length {i : Instr} {bn : Buf} {s : State} (hin : inputBuffers i = [bn]) (h : s.getLen bn = 32#6) :
    exec i s = .next (commandBody i s).markSuccess :=
  exec_of_noError ((commandError_of_input s hin).trans (if_pos h))

theorem exec_of_length_ne {i : Instr} {bn : Buf} {s : State} (hin : inputBuffers i = [bn]) (h : s.getLen bn ≠ 32#6) :
    exec i s = .next (s.failedWith 1) :=
  exec_of_error ((commandError_of_input s hin).trans (if_neg h))

/-- Two commands one after the other, both of which answer. -/
theorem execAll_pair {i j : Instr} {s t u : State} (hi : exec i s = .next t) (hj : exec j t = .next u) :
    execAll [i, j] s = .next u := by
  simp only [execAll, hi, hj]

/-- The bytes of a field element are canonical (R139). -/
theorem le32_canonical {x : Nat} (h : x < P) : leSum (le32 x) < P ∧ (le32 x)[31].getLsbD 7 = false := by
  have hsum := leSum_le32 (lt_two_pow_of_lt_P h)
  exact ⟨hsum.trans_lt h, byte31_msb_of_lt (hsum.trans_lt (h.trans P_lt_two_pow))⟩

theorem ladderFn_lt (k : Scalar) (u : Nat) : ladderFn k u < P := fmul_lt _ _

/-- ENC, X25519 and BASEMUL write the bytes of a field element (R139). -/
theorem commandBody_writes_field_element {i : Instr} {bo bk bu : Buf} {fa : FReg} {s : State} (hred : s.reduced)
    (hi : i = .enc bo fa ∨ i = .x25519 bo bk bu ∨ i = .basemul bo bk) :
    ∃ x < P, (commandBody i s).getBuf bo = le32 x := by
  obtain rfl | rfl | rfl := hi
  · exact ⟨_, hred fa, getBuf_setBuf_same s bo _⟩
  · exact ⟨_, ladderFn_lt _ _, getBuf_setBuf_same s bo _⟩
  · exact ⟨_, ladderFn_lt _ _, getBuf_setBuf_same s bo _⟩

/-- A command that answers without an error has written its body. -/
theorem eq_commandBody_of_no_err {i : Instr} {s t : State} (h : exec i s = .next t) (herr : t.err = false) :
    t = (commandBody i s).markSuccess := by
  obtain ⟨_, hexec⟩ | ⟨e, _, hexec⟩ := exec_cases_of_commandError i s
  · exact Host.Outcome.next.inj (h.symm.trans hexec)
  · obtain rfl := Host.Outcome.next.inj (h.symm.trans hexec)
    nomatch herr

/-! Sequences of commands (R135, R136, R138). -/

/-- DECU, then ENC of the register it wrote: the output holds the bytes of the decoded value. -/
theorem execAll_decu_enc {s : State} (f : FReg) {bn : Buf} (bo : Buf) (h : s.getLen bn = 32#6) :
    ∃ t, execAll [.decu f bn, .enc bo f] s = .next t ∧ t.getLen bo = 32#6 ∧ t.getBuf bo = le32 (decodeU (s.getBuf bn)) := by
  refine ⟨_, execAll_pair (exec_of_length rfl h) (exec_of_noError rfl), getLen_setBuf_same _ bo _, ?_⟩
  exact (getBuf_setBuf_same _ bo _).trans (congrArg le32 (getF_setF_same s f _))

/-- A command that writes K, then KENC: the output holds the bytes of K. -/
theorem execAll_kenc {s u : State} {i : Instr} (bo : Buf) (hi : exec i s = .next u) :
    ∃ t, execAll [i, .kenc bo] s = .next t ∧ t.getLen bo = 32#6 ∧ t.getBuf bo = le32 u.k.toNat ∧ t.k = u.k :=
  ⟨_, execAll_pair hi (exec_of_noError rfl), getLen_setBuf_same _ bo _, getBuf_setBuf_same _ bo _, rfl⟩

theorem toNat_ofNat_clampValue (v : Bytes32) : (BitVec.ofNat 256 (clampValue v)).toNat = clampValue v :=
  Nat.mod_eq_of_lt (clampValue_lt_two_pow_256 v)

theorem toNat_ofNat_le (v : Bytes32) : (BitVec.ofNat 256 (le v)).toNat = le v := Nat.mod_eq_of_lt (le_lt v)

end Sys2Proof.Machine
end

section
/-! PROOFS. The statements of 41_codec.md settled. -/

namespace Sys2Proof.Machine

/-- Settles O19: the masked value is below p + 19, and the mask of byte 31 touches bit 255 only. -/
theorem decodeUReducesNonCanonical : Obligations.DecodeUReducesNonCanonical := by
  intro v
  have hlt : leSum v % 2 ^ 255 < 2 ^ 255 := Nat.mod_lt _ (by decide)
  rw [decodeU_clear_bit255, decodeU_eq]
  refine ⟨?_, fun hge => ?_, rfl⟩
  · split
    next hred => exact Nat.mod_eq_of_lt hred
    next hge => exact (mod_P_of_ge hlt (not_lt.mp hge)).1
  · obtain ⟨hmod, hsub⟩ := mod_P_of_ge hlt hge
    exact hmod.trans_lt hsub

/-- Settles O20: bytes 0 and 31 give the factor 8 and the range, and clamping clamped bytes changes nothing. -/
theorem clampIsProjection : Obligations.ClampIsProjection := by
  intro v
  obtain ⟨hlow, hhigh⟩ := clampValue_bounds v
  exact ⟨eight_dvd_clampValue v, hlow, hhigh, clampValue_le32_clampValue v, (Nat.two_pow_pos 254).trans_le hlow |>.ne'⟩

/-- Settles O13: one register is written, with decode_u as a remainder, if the length check passes. -/
theorem decuDecodesOrRejects : Obligations.DecuDecodesOrRejects := by
  intro fd bn s
  refine ⟨decode_encode (.decu fd bn), fun h => ?_, exec_of_length_ne rfl⟩
  rw [← decodeU_eq]
  exact exec_of_length rfl h

/-- Settles O14: K is the clamped bytes' value, whose bits are the bytes' bits. -/
theorem clampSetsScalarBits : Obligations.ClampSetsScalarBits := by
  intro bn s
  refine ⟨decode_encode (.clamp bn), fun h => ⟨BitVec.ofNat 256 (clampValue (s.getBuf bn)), fun i b => ?_, exec_of_length rfl h⟩,
    exec_of_length_ne rfl⟩
  rw [BitVec.getLsbD_ofNat, decide_eq_true (by omega), Bool.true_and, clampValue, le_testBit _ i.isLt b.isLt,
    clampBytes_getLsbD _ i.isLt b.isLt]
  rfl

/-- Settles O15: a reduced register is below 2^255, so LE32 loses no bit of it. -/
theorem encWritesCanonicalBytes : Obligations.EncWritesCanonicalBytes := by
  intro bn fa s h
  exact ⟨decode_encode (.enc bn fa), le32 (s.getF fa), leSum_le32 (lt_two_pow_of_lt_P (h fa)), (le32_canonical (h fa)).2,
    exec_of_noError rfl⟩

/-- Settles O16: 32 bytes have a value below 2^256, so K loses no bit of it. -/
theorem kldrLoadsAllBits : Obligations.KldrLoadsAllBits := by
  intro bn s
  exact ⟨decode_encode (.kldr bn), fun h => ⟨_, (toNat_ofNat_le _).trans (le_eq_leSum _), exec_of_length rfl h⟩, exec_of_length_ne rfl⟩

/-- Settles O17: K is below 2^256, so LE32 loses no bit of it. -/
theorem kencWritesAllBits : Obligations.KencWritesAllBits := by
  intro bn s
  exact ⟨decode_encode (.kenc bn), le32 s.k.toNat, leSum_le32 s.k.isLt, exec_of_noError rfl⟩

/-- Settles O21: each pair of commands writes LE32 of what the first one read, and LE32 undoes LE. -/
theorem codecCommandsRoundTrip : Obligations.CodecCommandsRoundTrip := by
  intro f bn bo s h
  refine ⟨?_, ?_, ?_⟩
  · obtain ⟨t, ht, hlen, hbuf⟩ := execAll_decu_enc f bo h
    refine ⟨t, ht, hlen, ?_, fun hcanonical => ?_⟩
    · rw [hbuf, leSum_le32 (lt_two_pow_of_lt_P (decodeU_lt _)), decodeU_eq]
    · rw [hbuf, decodeU_of_canonical hcanonical, le32_leSum]
  · obtain ⟨t, ht, hlen, hbuf, -⟩ := execAll_kenc bo (exec_of_length (i := .kldr bn) rfl h)
    refine ⟨t, ht, hlen, hbuf.trans ?_⟩
    exact (congrArg le32 (toNat_ofNat_le (s.getBuf bn))).trans (le32_le _)
  · obtain ⟨t, ht, hlen, hbuf, hk⟩ := execAll_kenc bo (exec_of_length (i := .clamp bn) rfl h)
    refine ⟨t, _, ht, exec_of_length rfl hlen, ?_, rfl⟩
    have hbytes : t.getBuf bo = le32 (clampValue (s.getBuf bn)) := hbuf.trans (congrArg le32 (toNat_ofNat_clampValue _))
    refine (congrArg (fun v => BitVec.ofNat 256 (clampValue v)) hbytes).trans (Eq.trans ?_ hk.symm)
    exact congrArg (BitVec.ofNat 256) (clampValue_le32_clampValue _)

/-- Settles O36: the three commands write the bytes of a field element. -/
theorem outputEncodingsAreCanonical : Obligations.OutputEncodingsAreCanonical := by
  intro i bo bk bu fa s t hred hi hexec herr
  obtain rfl := eq_commandBody_of_no_err hexec herr
  obtain ⟨x, hx, hbuf⟩ := commandBody_writes_field_element hred hi
  have hout : (commandBody i s).markSuccess.getBuf bo = le32 x := hbuf
  rw [hout]
  exact le32_canonical hx

end Sys2Proof.Machine
end

section
/-! PROOFS. The ladder commands on states (42_ladder.md R160 to R166): one round as algebra modulo p, the registers that LINIT, LSTEP and LFIN leave, and rounds of the machine as the rounds of LadderFn. -/

namespace Sys2Proof.Machine

open Sys2Proof.Config

/-! The conditional swap of the pairs, and one round (R160, R161). -/

/-- The two pairs exchanged. -/
def Pairs.flip (q : Pairs) : Pairs := { x2 := q.x3, z2 := q.z3, x3 := q.x2, z3 := q.z2 }

theorem Pairs.cswap_eq {q : Pairs} (c : Bool) (h : q.reduced) : q.cswap c = if c then q.flip else q := by
  obtain ⟨hx2, hz2, hx3, hz3⟩ := h
  rw [Pairs.cswap, Machine.cswap_eq c (lt_two_pow_of_lt_P hx2) (lt_two_pow_of_lt_P hx3),
    Machine.cswap_eq c (lt_two_pow_of_lt_P hz2) (lt_two_pow_of_lt_P hz3)]
  cases c with
  | true => rfl
  | false => rfl

/-- The mask of the bit 0 exchanges nothing, whatever the values. -/
@[simp] theorem Pairs.cswap_false (q : Pairs) : q.cswap false = q := by
  simp [Pairs.cswap, Machine.cswap]

/-- A round's first pair is the doubling of the first pair, modulo p (R160, step 4). -/
theorem Pairs.arith_double_zmod (x1 : Nat) (q : Pairs) :
    let e : ZMod P := (q.x2 + q.z2) ^ 2 - (q.x2 - q.z2) ^ 2
    ((q.arith x1).x2 : ZMod P) = (q.x2 + q.z2) ^ 2 * (q.x2 - q.z2) ^ 2 ∧
    ((q.arith x1).z2 : ZMod P) = e * ((q.x2 + q.z2) ^ 2 + 121665 * e) := by
  simp only [Pairs.arith, fadd_zmod, fsub_zmod, fmul_zmod, A24, Nat.cast_ofNat, sq, and_self]

/-- A round's second pair is the differential addition of the pairs, modulo p (R160, step 5). -/
theorem Pairs.arith_add_zmod (x1 : Nat) (q : Pairs) :
    ((q.arith x1).x3 : ZMod P) = ((q.x3 - q.z3) * (q.x2 + q.z2) + (q.x3 + q.z3) * (q.x2 - q.z2)) ^ 2 ∧
    ((q.arith x1).z3 : ZMod P) = x1 * ((q.x3 - q.z3) * (q.x2 + q.z2) - (q.x3 + q.z3) * (q.x2 - q.z2)) ^ 2 := by
  simp only [Pairs.arith, fadd_zmod, fsub_zmod, fmul_zmod, sq, and_self]

/-! The field registers after each body (R162 to R164). -/

@[simp] theorem getF_markSuccess (s : State) (r : FReg) : s.markSuccess.getF r = s.getF r := rfl

/-- The coordinate registers after they are written, in their order in the register file (10_state.md R21). -/
theorem getF_setPairs_in_order (s : State) (q : Pairs) (r : FReg) :
    (s.setPairs q).getF r =
      if r = 12 then q.x2 else if r = 13 then q.z2 else if r = 14 then q.x3 else if r = 15 then q.z3 else s.getF r := by
  rw [getF_setPairs]
  grind

theorem getF_linitBody (fa r : FReg) (s : State) :
    (linitBody fa s).getF r =
      if r = 11 then s.getF fa else if r = 12 then 1 else if r = 13 then 0 else if r = 14 then s.getF fa else if r = 15 then 1
      else s.getF r := by
  have hbody : (linitBody fa s).getF r =
      ((s.setF rX1 (s.getF fa)).setPairs { x2 := 1, z2 := 0, x3 := s.getF fa, z3 := 1 }).getF r := rfl
  rw [hbody, getF_setPairs_in_order, getF_setF]
  grind

/-- A round keeps X1 and every register below it. -/
theorem getF_lstepBody_of_le {r : FReg} (h : r.val ≤ 11) (s : State) : (lstepBody s).getF r = s.getF r := by
  refine (getF_setPairs_in_order s _ r).trans ?_
  grind

theorem getPairs_lstepBody (s : State) :
    (lstepBody s).getPairs = (s.getPairs.cswap (s.swap ^^ s.k.getLsbD (s.round.toNat - 1))).arith (s.getF rX1) :=
  getPairs_setPairs s _

/-- The coordinate registers after a round on the pairs (x2 : z2) and (x3 : z3), as algebra modulo p. -/
theorem lstepBody_zmod {s : State} {x2 z2 x3 z3 : Nat}
    (h : (lstepBody s).getPairs = Pairs.arith (s.getF rX1) ⟨x2, z2, x3, z3⟩) :
    let e : ZMod P := (x2 + z2) ^ 2 - (x2 - z2) ^ 2
    ((lstepBody s).getF 12 : ZMod P) = (x2 + z2) ^ 2 * (x2 - z2) ^ 2 ∧
    ((lstepBody s).getF 13 : ZMod P) = e * ((x2 + z2) ^ 2 + 121665 * e) ∧
    ((lstepBody s).getF 14 : ZMod P) = ((x3 - z3) * (x2 + z2) + (x3 + z3) * (x2 - z2)) ^ 2 ∧
    ((lstepBody s).getF 15 : ZMod P) = s.getF 11 * ((x3 - z3) * (x2 + z2) - (x3 + z3) * (x2 - z2)) ^ 2 := by
  obtain ⟨hx2, hz2⟩ := Pairs.arith_double_zmod (s.getF rX1) ⟨x2, z2, x3, z3⟩
  obtain ⟨hx3, hz3⟩ := Pairs.arith_add_zmod (s.getF rX1) ⟨x2, z2, x3, z3⟩
  rw [← h] at hx2 hz2 hx3 hz3
  exact ⟨hx2, hz2, hx3, hz3⟩

theorem fmul_finv_eq_mod (x z : Nat) : fmul x (finv z) = x * z ^ (P - 2) % P := by
  rw [fmul_eq_mod, finv_eq_mod, Nat.mul_mod_mod]

/-- LFIN's final swap, and F[fd] written last. -/
theorem getF_lfinBody (fd r : FReg) (s : State) :
    (lfinBody fd s).getF r =
      if r = fd then fmul (s.getPairs.cswap s.swap).x2 (finv (s.getPairs.cswap s.swap).z2)
      else (s.setPairs (s.getPairs.cswap s.swap)).getF r :=
  getF_setF _ fd r _

/-- The pairs after LFIN's final swap, and every other register. -/
theorem getF_finalSwap {s : State} (hred : s.reduced) (r : FReg) :
    (s.setPairs (s.getPairs.cswap s.swap)).getF r =
      if s.swap = false then s.getF r
      else if r = 12 then s.getF 14 else if r = 13 then s.getF 15 else if r = 14 then s.getF 12 else if r = 15 then s.getF 13
      else s.getF r := by
  rw [getF_setPairs_in_order, Pairs.cswap_eq _ hred.getPairs]
  cases s.swap with
  | true => rfl
  | false => simp only [State.getPairs]; grind

/-! What LSTEP and LFIN answer (R163, R164, R215). -/

theorem exec_lstep_sequence {s : State} (h : s.lact = false ∨ s.round = 0#9) : exec .lstep s = .next (s.failedWith 3) :=
  exec_of_error (e := .sequence) (if_pos h)

theorem exec_lstep_round {s : State} (hlact : s.lact = true) (hround : s.round ≠ 0#9) :
    exec .lstep s = .next (lstepBody s).markSuccess :=
  exec_of_noError (by simp [commandError, inputBuffers, hlact, hround])

theorem exec_lfin_sequence {s : State} (fd : FReg) (h : s.lact = false ∨ s.round ≠ 0#9) :
    exec (.lfin fd) s = .next (s.failedWith 3) :=
  exec_of_error (e := .sequence) (if_pos h)

theorem exec_lfin_finish {s : State} (fd : FReg) (hlact : s.lact = true) (hround : s.round = 0#9) :
    exec (.lfin fd) s = .next (lfinBody fd s).markSuccess :=
  exec_of_noError (by simp [commandError, inputBuffers, hlact, hround])

/-! Rounds of the machine (R163, R165, R166). -/

/-- LSTEPs while rounds are left run the bodies one after the other; nothing of a round reads STATUS. -/
theorem execAll_lstep_append {n : Nat} {s : State} (rest : List Instr) (hlact : s.lact = true) (hround : n ≤ s.round.toNat) :
    execAll (List.replicate n .lstep ++ rest) s.markSuccess = execAll rest (lstepBody^[n] s).markSuccess := by
  induction n generalizing s with
  | zero => rfl
  | succ n ih =>
    have hopen : s.round ≠ 0#9 := fun h => by simp [h] at hround
    have hstep : exec .lstep s.markSuccess = .next (lstepBody s).markSuccess := exec_lstep_round hlact hopen
    have hleft : n ≤ (lstepBody s).round.toNat := by rw [lstepBody_round]; omega
    rw [List.replicate_succ, List.cons_append, execAll, hstep]
    exact ih hlact hleft

/-- LINIT and n LSTEPs, n up to 255, before any further commands. -/
theorem execAll_openLadder_append {n : Nat} (fa : FReg) (rest : List Instr) (s : State) (hn : n ≤ 255) :
    execAll (openLadder fa n ++ rest) s = execAll rest (lstepBody^[n] (linitBody fa s)).markSuccess :=
  execAll_lstep_append rest rfl hn

/-- LFIN at the end of a sequence, after another command has succeeded. -/
theorem execAll_lfin_markSuccess {s : State} (fd : FReg) (hlact : s.lact = true) (hround : s.round = 0#9) :
    execAll [.lfin fd] s.markSuccess = .next (lfinBody fd s).markSuccess := by
  have hlfin : exec (.lfin fd) s.markSuccess = .next (lfinBody fd s).markSuccess := exec_lfin_finish fd hlact hround
  simp only [execAll, hlfin]

theorem lstepBody_iterate_lact (n : Nat) (s : State) : (lstepBody^[n] s).lact = s.lact :=
  lstepBody_iterate_unchanged State.lact (fun _ => rfl) n s

/-- The machine's rounds are those of LadderFn, on the coordinate registers and SWAP (R160, R165). -/
theorem lstepBody_iterate_eq_ladderRounds {n : Nat} {s : State} (h : s.round.toNat = n) :
    ((lstepBody^[n] s).getPairs, (lstepBody^[n] s).swap) = ladderRounds s.k (s.getF rX1) n s.getPairs s.swap := by
  induction n generalizing s with
  | zero => rfl
  | succ n ih =>
    have hround : (lstepBody s).round.toNat = n := by rw [lstepBody_round, h, Nat.add_sub_cancel]
    have hx1 : (lstepBody s).getF rX1 = s.getF rX1 := getF_lstepBody_of_le (by decide) s
    have hpairs : (lstepBody s).getPairs = (s.getPairs.cswap (s.swap ^^ s.k.getLsbD n)).arith (s.getF rX1) := by
      rw [getPairs_lstepBody, h, Nat.add_sub_cancel]
    have hswap : (lstepBody s).swap = s.k.getLsbD n := by
      simp only [lstepBody, State.setLadder_swap, h, Nat.add_sub_cancel]
    have hk : (lstepBody s).k = s.k := rfl
    rw [Function.iterate_succ_apply, ih hround, hk, hx1, hpairs, hswap, ladderRounds]

/-- The last round leaves its own bit in the swap flag (R160). -/
theorem ladderRounds_succ_swap (k : Scalar) (x1 n : Nat) (q : Pairs) (swap : Bool) :
    (ladderRounds k x1 (n + 1) q swap).2 = k.getLsbD 0 := by
  induction n generalizing q swap with
  | zero => rfl
  | succ n ih => exact ih _ _

/-! The whole ladder (R165). -/

theorem getPairs_linitBody (fa : FReg) (s : State) :
    (linitBody fa s).getPairs = { x2 := 1, z2 := 0, x3 := s.getF fa, z3 := 1 } := getPairs_setPairs _ _

/-- The state after the bodies of LINIT and 255 times LSTEP. -/
def afterRounds (fa : FReg) (s : State) : State := lstepBody^[rounds] (linitBody fa s)

theorem exec_ladder (fd fa : FReg) (s : State) : exec (.ladder fd fa) s = .next (lfinBody fd (afterRounds fa s)).markSuccess := rfl

theorem afterRounds_lact (fa : FReg) (s : State) : (afterRounds fa s).lact = true := lstepBody_iterate_lact rounds _

theorem afterRounds_round (fa : FReg) (s : State) : (afterRounds fa s).round = 0#9 := round_after_rounds fa s

theorem reduced_afterRounds {s : State} (fa : FReg) (h : s.reduced) : (afterRounds fa s).reduced :=
  reduced_lstepBody_iterate rounds (reduced_linitBody fa h)

/-- The coordinate registers and SWAP then hold what the rounds of LadderFn give. -/
theorem afterRounds_eq_ladderRounds (fa : FReg) (s : State) :
    ((afterRounds fa s).getPairs, (afterRounds fa s).swap) =
      ladderRounds s.k (s.getF fa) rounds { x2 := 1, z2 := 0, x3 := s.getF fa, z3 := 1 } false := by
  have hx1 : (linitBody fa s).getF rX1 = s.getF fa := (getF_linitBody fa rX1 s).trans (if_pos rfl)
  have hround : (linitBody fa s).round.toNat = rounds := rfl
  rw [afterRounds, lstepBody_iterate_eq_ladderRounds hround, hx1, getPairs_linitBody]
  rfl

theorem afterRounds_swap (fa : FReg) (s : State) : (afterRounds fa s).swap = s.k.getLsbD 0 :=
  (congrArg Prod.snd (afterRounds_eq_ladderRounds fa s)).trans (ladderRounds_succ_swap _ _ 254 _ _)

/-- X1 holds u, and the registers below it their old values. -/
theorem getF_afterRounds_of_le {r : FReg} (h : r.val ≤ 11) (fa : FReg) (s : State) :
    (afterRounds fa s).getF r = if r = 11 then s.getF fa else s.getF r := by
  rw [afterRounds, lstepBody_iterate_unchanged (fun u => u.getF r) (fun u => getF_lstepBody_of_le h u), getF_linitBody]
  grind

/-- Rounds write field registers, SWAP and ROUND, and nothing else. -/
theorem lstepBody_iterate_frame (n : Nat) (s : State) :
    lstepBody^[n] s =
      { s with f := (lstepBody^[n] s).f, swap := (lstepBody^[n] s).swap, round := (lstepBody^[n] s).round } := by
  induction n generalizing s with
  | zero => rfl
  | succ n ih => exact ih (lstepBody s)

theorem afterRounds_frame (fa : FReg) (s : State) :
    afterRounds fa s = { s with f := (afterRounds fa s).f, swap := s.k.getLsbD 0, round := 0#9, lact := true } := by
  have hframe := lstepBody_iterate_frame rounds (linitBody fa s)
  rw [← afterRounds, afterRounds_swap, afterRounds_round] at hframe
  exact hframe

/-- LFIN writes field registers, LACT and STATUS, and nothing else. -/
theorem lfinBody_frame (fd : FReg) (s : State) :
    (lfinBody fd s).markSuccess =
      { s with f := (lfinBody fd s).f, lact := false, busy := false, done := true, err := false, errcode := 0 } := rfl

/-- LADDER writes field registers, the ladder fields and STATUS, and nothing else. -/
theorem ladder_frame (fd fa : FReg) (s : State) :
    (lfinBody fd (afterRounds fa s)).markSuccess =
      { s with
        f := (lfinBody fd (afterRounds fa s)).f, swap := s.k.getLsbD 0, round := 0#9, lact := false
        busy := false, done := true, err := false, errcode := 0 } := by
  rw [lfinBody_frame]
  generalize (lfinBody fd (afterRounds fa s)).f = f
  rw [afterRounds_frame]

end Sys2Proof.Machine
end

section
/-! PROOFS. The statements of 42_ladder.md about the ladder commands settled. -/

namespace Sys2Proof.Machine

open Sys2Proof.Config

/-- Settles O12: the mask is all ones or zero, so XOR with the masked difference exchanges or keeps. -/
theorem maskSwapIsSwap : Obligations.MaskSwapIsSwap := fun c _ _ => ⟨cswap_eq c, cswap_lt c⟩

/-- Settles O22: five registers are written with values read before. -/
theorem linitOpensLadder : Obligations.LinitOpensLadder := by
  intro fa s
  refine ⟨decode_encode (.linit fa), (linitBody fa s).markSuccess, rfl, rfl, fun r => getF_linitBody fa r s, ?_⟩
  exact (by decide : 0#14 ++ BitVec.ofBool true ++ BitVec.ofBool false ++ 0#7 ++ 255#9 = 0x000200FF#32)

/-- Settles O23: one round of the pairs as algebra modulo p, after their conditional exchange. -/
theorem lstepRunsOneRound : Obligations.LstepRunsOneRound := by
  intro s
  refine ⟨decode_encode .lstep, exec_lstep_sequence, fun hred hlact hround => ?_⟩
  refine ⟨_, exec_lstep_round hlact hround, rfl, reduced_lstepBody hred, fun r hr => getF_lstepBody_of_le hr s, ?_⟩
  have hpairs := getPairs_lstepBody s
  rw [Pairs.cswap_eq _ hred.getPairs] at hpairs
  cases hc : s.swap != s.k.getLsbD (s.round.toNat - 1) with
  | true => exact lstepBody_zmod (hpairs.trans (congrArg (Pairs.arith _) (if_pos hc)))
  | false => exact lstepBody_zmod (hpairs.trans (congrArg (Pairs.arith _) (if_neg (ne_true_of_eq_false hc))))

/-- Settles O24: the final exchange, then the quotient written last. -/
theorem lfinFinishesLadder : Obligations.LfinFinishesLadder := by
  intro fd s
  refine ⟨decode_encode (.lfin fd), exec_lfin_sequence fd, fun hred hlact hround => ?_⟩
  refine ⟨_, exec_lfin_finish fd hlact hround, rfl, fun r => (getF_lfinBody fd r s).trans ?_⟩
  rw [getF_finalSwap hred, Pairs.cswap_eq _ hred.getPairs, fmul_finv_eq_mod]
  cases s.swap with
  | true => rfl
  | false => rfl

/-- Settles O25: the machine's rounds are those of LadderFn, and LFIN's last steps are its last steps. -/
theorem ladderComputesLadderFn : Obligations.LadderComputesLadderFn := by
  intro fd fa s hred
  refine ⟨decode_encode (.ladder fd fa), _, exec_ladder fd fa s, ladder_frame fd fa s, ?_, fun r hr => ?_⟩
  · rw [ladderFn, ← afterRounds_eq_ladderRounds, getF_markSuccess, getF_lfinBody, if_pos rfl]
  · have hrun := afterRounds_eq_ladderRounds fa s
    have hlow (r : FReg) (h : r.val ≤ 11) := getF_afterRounds_of_le h fa s
    rw [getF_markSuccess, getF_lfinBody, if_neg hr, getF_finalSwap (reduced_afterRounds fa hred)]
    rw [rounds] at hrun
    simp only [← hrun, State.getPairs]
    cases (afterRounds fa s).swap <;> grind

/-- Settles O26: the commands run the bodies one after the other, and LADDER runs the same bodies. -/
theorem ladderIsStepwiseSequence : Obligations.LadderIsStepwiseSequence := by
  intro fd fa s
  have hrounds := execAll_openLadder_append fa [.lfin fd] s (Nat.le_refl rounds)
  exact hrounds.trans (execAll_lfin_markSuccess fd (afterRounds_lact fa s) (afterRounds_round fa s))

/-- Settles O27: each round counts ROUND down from 255. -/
theorem ladderNeedsAll255Rounds : Obligations.LadderNeedsAll255Rounds := by
  intro fa fd n s hn
  have hrun := execAll_openLadder_append fa [] s hn
  rw [List.append_nil] at hrun
  have hround : (lstepBody^[n] (linitBody fa s)).round.toNat = 255 - n := by
    rw [lstepBody_iterate_round, linitBody_round]; rfl
  refine ⟨_, hrun, hround, lstepBody_iterate_lact n _, fun hlt => exec_lfin_sequence fd (.inr fun h => ?_),
    fun hall => exec_lstep_sequence (.inr (BitVec.eq_of_toNat_eq ?_))⟩
  · have hzero : 255 - n = 0 := hround.symm.trans (congrArg BitVec.toNat h)
    omega
  · exact hround.trans (Nat.sub_eq_zero_of_le hall.ge)

end Sys2Proof.Machine
end

section
/-! PROOFS. LadderFn as algebra modulo p (42_ladder.md R160, R168): rounds cut at a bit, the ladder's quotient as division in ZMod p, doubling on the quotient, and what a ladder keeps on points of small order. -/

namespace Sys2Proof.Machine

open Sys2Proof.Config

/-! The rounds of a scalar, cut at a bit, and rounds of zero bits. -/

/-- The pairs a ladder begins with (R160). -/
def Pairs.start (u : Nat) : Pairs := { x2 := 1, z2 := 0, x3 := u, z3 := 1 }

theorem Pairs.reduced_start {u : Nat} (h : u < P) : (Pairs.start u).reduced :=
  have hone : 1 < P := Nat.lt_of_succ_lt two_lt_P
  ⟨hone, P_pos, h, hone⟩

/-- The pairs after the last round's final swap. -/
def ladderEnd (k : Scalar) (x1 n : Nat) (q : Pairs) (swap : Bool) : Pairs :=
  (ladderRounds k x1 n q swap).1.cswap (ladderRounds k x1 n q swap).2

/-- The rounds for bits n + m − 1 to m, then those for bits m − 1 to 0. -/
theorem ladderRounds_split (k : Scalar) (x1 n m : Nat) (q : Pairs) (swap : Bool) :
    ladderRounds k x1 (n + m) q swap =
      ladderRounds k x1 m (ladderRounds (k >>> m) x1 n q swap).1 (ladderRounds (k >>> m) x1 n q swap).2 := by
  induction n generalizing q swap with
  | zero => rw [Nat.zero_add]; rfl
  | succ n ih =>
    have hbit : (k >>> m).getLsbD n = k.getLsbD (n + m) := by rw [BitVec.getLsbD_ushiftRight, Nat.add_comm]
    rw [Nat.succ_add, ladderRounds, ladderRounds, hbit, ih]

/-- Rounds of zero bits, with nothing to exchange first, only double and add. -/
theorem ladderRounds_zero_bits {k : Scalar} {n : Nat} (x1 : Nat) (h : ∀ t, t < n → k.getLsbD t = false) (q : Pairs) :
    ladderRounds k x1 n q false = ((Pairs.arith x1)^[n] q, false) := by
  induction n generalizing q with
  | zero => rfl
  | succ n ih =>
    rw [ladderRounds, h n (Nat.lt_succ_self n), Bool.xor_false, Pairs.cswap_false, ih fun t ht => h t (Nat.lt_succ_of_lt ht)]
    rfl

/-- A ladder that ends with zero bits makes its final swap before them. -/
theorem ladderEnd_zero_bits {k : Scalar} {n : Nat} (x1 : Nat) (h : ∀ t, t < n → k.getLsbD t = false) (q : Pairs) (swap : Bool) :
    ladderEnd k x1 n q swap = (Pairs.arith x1)^[n] (q.cswap swap) := by
  cases n with
  | zero => rfl
  | succ n =>
    rw [ladderEnd, ladderRounds, h n (Nat.lt_succ_self n), Bool.xor_false,
      ladderRounds_zero_bits x1 fun t ht => h t (Nat.lt_succ_of_lt ht)]
    exact Pairs.cswap_false _

theorem ladderEnd_split (k : Scalar) (x1 n m : Nat) (q : Pairs) (swap : Bool) :
    ladderEnd k x1 (n + m) q swap =
      ladderEnd k x1 m (ladderRounds (k >>> m) x1 n q swap).1 (ladderRounds (k >>> m) x1 n q swap).2 := by
  rw [ladderEnd, ladderRounds_split]; rfl

theorem ladderEnd_succ (k : Scalar) (x1 n : Nat) (q : Pairs) (swap : Bool) :
    ladderEnd k x1 (n + 1) q swap =
      ladderEnd k x1 n ((q.cswap (swap ^^ k.getLsbD n)).arith x1) (k.getLsbD n) := rfl

/-- The last round of an even scalar doubles what the scalar's half ends with. -/
theorem ladderEnd_succ_of_even {k : Scalar} (heven : k.getLsbD 0 = false) (x1 n : Nat) (q : Pairs) (swap : Bool) :
    ladderEnd k x1 (n + 1) q swap = (ladderEnd (k >>> 1) x1 n q swap).arith x1 := by
  have hlast (t : Nat) (ht : t < 1) : k.getLsbD t = false := by rwa [Nat.lt_one_iff.mp ht]
  rw [ladderEnd_split, ladderEnd_zero_bits x1 hlast]
  rfl

/-! The pairs modulo p, and the quotient a ladder ends with. -/

/-- The pair (x2 : z2), modulo p. -/
def Pairs.first (q : Pairs) : ZMod P × ZMod P := (q.x2, q.z2)

/-- The pair (x3 : z3), modulo p. -/
def Pairs.second (q : Pairs) : ZMod P × ZMod P := (q.x3, q.z3)

/-- Doubling of a projective pair (R160, step 4). -/
def double (v : ZMod P × ZMod P) : ZMod P × ZMod P :=
  let e := (v.1 + v.2) ^ 2 - (v.1 - v.2) ^ 2
  ((v.1 + v.2) ^ 2 * (v.1 - v.2) ^ 2, e * ((v.1 + v.2) ^ 2 + 121665 * e))

/-- Differential addition of projective pairs whose difference has the coordinate x1 (R160, step 5). -/
def addDiff (x1 : ZMod P) (v w : ZMod P × ZMod P) : ZMod P × ZMod P :=
  ((2 * (v.1 * w.1 - v.2 * w.2)) ^ 2, x1 * (2 * (v.2 * w.1 - v.1 * w.2)) ^ 2)

theorem first_arith (x1 : Nat) (q : Pairs) : (q.arith x1).first = double q.first :=
  Prod.ext (Pairs.arith_double_zmod x1 q).1 (Pairs.arith_double_zmod x1 q).2

theorem second_arith (x1 : Nat) (q : Pairs) : (q.arith x1).second = addDiff x1 q.first q.second := by
  obtain ⟨hx3, hz3⟩ := Pairs.arith_add_zmod x1 q
  refine Prod.ext (hx3.trans ?_) (hz3.trans ?_)
  · simp only [addDiff, Pairs.first, Pairs.second]; ring
  · simp only [addDiff, Pairs.first, Pairs.second]; ring

theorem first_arith_iterate (x1 n : Nat) (q : Pairs) : ((Pairs.arith x1)^[n] q).first = double^[n] q.first :=
  (Function.Semiconj.iterate_right (f := Pairs.first) (first_arith x1) n) q

theorem reduced_arith_iterate (x1 n : Nat) {q : Pairs} (h : q.reduced) : ((Pairs.arith x1)^[n] q).reduced := by
  cases n with
  | zero => exact h
  | succ n => rw [Function.iterate_succ_apply']; exact Pairs.reduced_arith _ _

theorem first_start (u : Nat) : (Pairs.start u).first = (1, 0) := by simp [Pairs.first, Pairs.start]

theorem second_start (u : Nat) : (Pairs.start u).second = ((u : ZMod P), 1) := by simp [Pairs.second, Pairs.start]

/-- The point at infinity doubled is itself. -/
theorem double_infinity : double (1, 0) = (1, 0) := by simp [double]

/-- Rounds of zero bits leave the first pair at infinity. -/
theorem first_zero_rounds (u n : Nat) : ((Pairs.arith u)^[n] (Pairs.start u)).first = (1, 0) := by
  rw [first_arith_iterate, first_start, Function.iterate_fixed double_infinity]

/-- The four coordinates are reduced, and both pairs have a property. -/
def Pairs.both (V : ZMod P × ZMod P → Prop) (q : Pairs) : Prop := q.reduced ∧ V q.first ∧ V q.second

theorem Pairs.both_start {V : ZMod P × ZMod P → Prop} {u : Nat} (hlt : u < P) (hinfinity : V (1, 0)) (hu : V (u, 1)) :
    (Pairs.start u).both V :=
  ⟨Pairs.reduced_start hlt, by rwa [first_start], by rwa [second_start]⟩

theorem Pairs.both_cswap {V : ZMod P × ZMod P → Prop} {q : Pairs} (c : Bool) (h : q.both V) : (q.cswap c).both V := by
  obtain ⟨hred, hfirst, hsecond⟩ := h
  refine ⟨Pairs.reduced_cswap c hred, ?_⟩
  rw [Pairs.cswap_eq c hred]
  cases c with
  | true => exact ⟨hsecond, hfirst⟩
  | false => exact ⟨hfirst, hsecond⟩

/-- A property that doubling and differential addition keep holds of both pairs at the end of a ladder. -/
theorem both_ladderEnd {V : ZMod P × ZMod P → Prop} {u : Nat} (hdouble : ∀ v, V v → V (double v))
    (hadd : ∀ v w, V v → V w → V (addDiff u v w)) (k : Scalar) (n : Nat) {q : Pairs} (swap : Bool) (h : q.both V) :
    (ladderEnd k u n q swap).both V := by
  induction n generalizing q swap with
  | zero => exact Pairs.both_cswap swap h
  | succ n ih =>
    obtain ⟨-, hfirst, hsecond⟩ := Pairs.both_cswap (swap ^^ k.getLsbD n) h
    rw [ladderEnd_succ]
    refine ih _ ⟨Pairs.reduced_arith _ _, ?_, ?_⟩
    · rw [first_arith]; exact hdouble _ hfirst
    · rw [second_arith]; exact hadd _ _ hfirst hsecond

section
variable [Fact P.Prime]

/-- The affine coordinate of a projective pair, 0 where z = 0 (R168). -/
def ratio (v : ZMod P × ZMod P) : ZMod P := v.1 / v.2

/-- Doubling of an affine coordinate. -/
def doubleAffine (a : ZMod P) : ZMod P := ratio (double (a, 1))

theorem finv_zmod_inv (a : Nat) : (finv a : ZMod P) = (a : ZMod P)⁻¹ := by
  have hexp : P - 2 + 1 = P - 1 := by have := two_lt_P; omega
  rw [finv_zmod]
  by_cases h : (a : ZMod P) = 0
  · rw [h, inv_zero, zero_pow (Nat.sub_ne_zero_of_lt two_lt_P)]
  · refine eq_inv_of_mul_eq_one_left ?_
    rw [← pow_succ, hexp, ZMod.pow_card_sub_one_eq_one h]

/-- LadderFn is the affine coordinate of the final first pair. -/
theorem ladderFn_zmod (k : Scalar) (u : Nat) :
    (ladderFn k u : ZMod P) = ratio (ladderEnd k u rounds (Pairs.start u) false).first := by
  have hdiv (x z : Nat) : (fmul x (finv z) : ZMod P) = (x : ZMod P) / z := by rw [fmul_zmod, finv_zmod_inv, div_eq_mul_inv]
  exact hdiv _ _

theorem ratio_eq_zero {v : ZMod P × ZMod P} (h : v.1 * v.2 = 0) : ratio v = 0 := by
  rw [ratio, div_eq_zero_iff]
  exact mul_eq_zero.mp h

theorem double_scale (c x z : ZMod P) : double (c * x, c * z) = (c ^ 4 * (double (x, z)).1, c ^ 4 * (double (x, z)).2) := by
  refine Prod.ext ?_ ?_
  · simp only [double]; ring
  · simp only [double]; ring

theorem ratio_scale {c : ZMod P} (x z : ZMod P) (h : c ≠ 0) : ratio (c * x, c * z) = ratio (x, z) := mul_div_mul_left x z h

/-- Doubling is homogeneous, so it acts on the affine coordinate. -/
theorem ratio_double (v : ZMod P × ZMod P) : ratio (double v) = doubleAffine (ratio v) := by
  obtain ⟨x, z⟩ := v
  by_cases hz : z = 0
  · simp [doubleAffine, ratio, double, hz]
  · have hv : (x, z) = (z * (x / z), z * 1) := by rw [mul_div_cancel₀ x hz, mul_one]
    rw [hv, double_scale, ratio_scale _ _ (pow_ne_zero 4 hz), ratio_scale _ _ hz, doubleAffine, ratio, ratio, ratio, div_one]

theorem ratio_double_iterate (n : Nat) (v : ZMod P × ZMod P) : ratio (double^[n] v) = doubleAffine^[n] (ratio v) :=
  (Function.Semiconj.iterate_right (f := ratio) ratio_double n) v

theorem natCast_ne_zero {a : Nat} (hlt : a < P) (h : a ≠ 0) : (a : ZMod P) ≠ 0 :=
  fun hzero => h (eq_of_zmod_eq hlt P_pos (hzero.trans Nat.cast_zero.symm))

theorem four_ne_zero_zmod : (4 : ZMod P) ≠ 0 := by
  exact_mod_cast natCast_ne_zero (a := 4) (by decide +kernel) (by decide)

/-! A scalar that is a power of two. -/

/-- The point at infinity and a point, added, give the point. -/
theorem addDiff_infinity (u z : ZMod P) :
    addDiff u (1, 0) (u * z, z) = (u * (4 * u * z ^ 2), 4 * u * z ^ 2) ∧
    addDiff u (u * z, z) (1, 0) = (u * (4 * u * z ^ 2), 4 * u * z ^ 2) := by
  refine ⟨Prod.ext ?_ ?_, Prod.ext ?_ ?_⟩
  all_goals simp only [addDiff]; ring

/-- Before the scalar's first one bit the pairs are the point at infinity and u. -/
theorem second_zero_rounds {u : Nat} (hu : (u : ZMod P) ≠ 0) (n : Nat) :
    ∃ z : ZMod P, z ≠ 0 ∧ ((Pairs.arith u)^[n] (Pairs.start u)).second = (u * z, z) := by
  induction n with
  | zero => exact ⟨1, one_ne_zero, by rw [mul_one]; exact second_start u⟩
  | succ n ih =>
    obtain ⟨z, hz, hsecond⟩ := ih
    refine ⟨4 * u * z ^ 2, mul_ne_zero (mul_ne_zero four_ne_zero_zmod hu) (pow_ne_zero 2 hz), ?_⟩
    rw [Function.iterate_succ_apply', second_arith, first_zero_rounds, hsecond]
    exact (addDiff_infinity _ z).1

/-- The first one bit of a scalar puts u into the pair that the bits after it double. -/
theorem ratio_first_one_bit {u : Nat} (hlt : u < P) (hu : (u : ZMod P) ≠ 0) (n : Nat) :
    ratio (((((Pairs.arith u)^[n] (Pairs.start u)).cswap true).arith u).cswap true).first = u := by
  obtain ⟨z, hz, hsecond⟩ := second_zero_rounds hu n
  have hfirst := first_zero_rounds u n
  have hred := reduced_arith_iterate u n (Pairs.reduced_start hlt)
  generalize (Pairs.arith u)^[n] (Pairs.start u) = q at hsecond hfirst hred
  have hflip : (((q.cswap true).arith u).cswap true).first = addDiff u q.second q.first := by
    rw [Pairs.cswap_eq true (Pairs.reduced_arith _ _), Pairs.cswap_eq true hred]
    exact second_arith u q.flip
  have hw : 4 * u * z ^ 2 ≠ 0 := mul_ne_zero (mul_ne_zero four_ne_zero_zmod hu) (pow_ne_zero 2 hz)
  rw [hflip, hsecond, hfirst, (addDiff_infinity _ z).2]
  exact mul_div_cancel_right₀ _ hw

/-! Points of small order (R168, 43_x25519.md R193). -/

/-- A pair of order up to 2: its affine coordinate is 0 or at infinity. -/
def onOrder2 (v : ZMod P × ZMod P) : Prop := v.1 * v.2 = 0

/-- A pair of order up to 4: its affine coordinate is 0, 1, −1 or at infinity. -/
def onOrder4 (v : ZMod P × ZMod P) : Prop := v.1 * v.2 * (v.1 ^ 2 - v.2 ^ 2) = 0

theorem onOrder4_of_onOrder2 {v : ZMod P × ZMod P} (h : onOrder2 v) : onOrder4 v := mul_eq_zero_of_left h _

theorem onOrder2_double {v : ZMod P × ZMod P} (h : onOrder4 v) : onOrder2 (double v) := by
  simp only [onOrder4, onOrder2, double] at *
  linear_combination 4 * (v.1 ^ 2 - v.2 ^ 2) * ((v.1 + v.2) ^ 2 + 121665 * (4 * v.1 * v.2)) * h

/-- Differential addition keeps the order up to 4, if the difference has it too. -/
theorem onOrder4_addDiff {u : ZMod P} {v w : ZMod P × ZMod P} (hu : u ^ 3 = u) (hv : onOrder4 v) (hw : onOrder4 w) :
    onOrder4 (addDiff u v w) := by
  obtain ⟨a, b⟩ := v
  obtain ⟨c, d⟩ := w
  simp only [onOrder4, addDiff] at *
  generalize hs : a * c - b * d = s
  generalize ht : b * c - a * d = t
  have hst : s * t * (s ^ 2 - t ^ 2) = 0 := by
    subst hs ht
    linear_combination (c ^ 4 - d ^ 4) * hv - (a ^ 4 - b ^ 4) * hw
  linear_combination 256 * u * s * t * (s ^ 2 + t ^ 2) * hst - 256 * s ^ 2 * t ^ 6 * hu

/-- A ladder on 0 ends with 0 (R168): its pairs keep an order up to 2. -/
theorem ladderFn_zero (k : Scalar) : ladderFn k 0 = 0 := by
  refine eq_of_zmod_eq (ladderFn_lt k 0) P_pos ?_
  have hstart : (Pairs.start 0).both onOrder2 := Pairs.both_start P_pos (by simp [onOrder2]) (by simp [onOrder2])
  have hadd (v w : ZMod P × ZMod P) : onOrder2 (addDiff (0 : Nat) v w) := by simp [onOrder2, addDiff]
  obtain ⟨-, hfirst, -⟩ := both_ladderEnd (fun _ hv => onOrder2_double (onOrder4_of_onOrder2 hv)) (fun v w _ _ => hadd v w)
    k rounds false hstart
  rw [ladderFn_zmod, ratio_eq_zero hfirst, Nat.cast_zero]

/-- A ladder with an even scalar on a point of order up to 4 ends with 0: its last round doubles a point of that kind. -/
theorem ladderFn_order4 {k : Scalar} {u : Nat} (hlt : u < P) (hu : (u : ZMod P) ^ 3 = u) (heven : k.getLsbD 0 = false) :
    ladderFn k u = 0 := by
  refine eq_of_zmod_eq (ladderFn_lt k u) P_pos ?_
  have hstart : (Pairs.start u).both onOrder4 := by
    refine Pairs.both_start hlt ?_ ?_
    · simp [onOrder4]
    · simp only [onOrder4]; linear_combination hu
  obtain ⟨-, hfirst, -⟩ := both_ladderEnd (fun _ hv => onOrder4_of_onOrder2 (onOrder2_double hv))
    (fun _ _ hv hw => onOrder4_addDiff hu hv hw) (k >>> 1) 254 false hstart
  rw [ladderFn_zmod, show rounds = 254 + 1 from rfl, ladderEnd_succ_of_even heven, first_arith,
    ratio_eq_zero (onOrder2_double hfirst), Nat.cast_zero]

/-- A ladder that reads no one bit ends with the point at infinity, so with 0 (R168). -/
theorem ladderFn_zero_bits {k : Scalar} (u : Nat) (h : ∀ t, t < rounds → k.getLsbD t = false) : ladderFn k u = 0 := by
  refine eq_of_zmod_eq (ladderFn_lt k u) P_pos ?_
  rw [ladderFn_zmod, ladderEnd_zero_bits u h, Pairs.cswap_false, first_zero_rounds, ratio_eq_zero (mul_zero _), Nat.cast_zero]

/-- The ladder with scalar 2^j doubles j times. -/
theorem ladderFn_twoPow {u j : Nat} (hlt : u < P) (hj : j < rounds) :
    (ladderFn (BitVec.twoPow 256 j) u : ZMod P) = doubleAffine^[j] u := by
  by_cases hu : u = 0
  · have hzero : doubleAffine 0 = 0 := ratio_eq_zero (by simp [double])
    rw [hu, ladderFn_zero, Nat.cast_zero, Function.iterate_fixed hzero]
  · have hhigh (t : Nat) (_ : t < rounds - (j + 1)) : (BitVec.twoPow 256 j >>> (j + 1)).getLsbD t = false := by
      rw [BitVec.getLsbD_ushiftRight, BitVec.getLsbD_twoPow, decide_eq_false (by omega : ¬ j = j + 1 + t), Bool.and_false]
    have hlow (t : Nat) (ht : t < j) : (BitVec.twoPow 256 j).getLsbD t = false := by
      rw [BitVec.getLsbD_twoPow, decide_eq_false (by omega : ¬ j = t), Bool.and_false]
    have hone : (BitVec.twoPow 256 j).getLsbD j = true := by
      rw [rounds] at hj
      rw [BitVec.getLsbD_twoPow, decide_eq_true (by omega : j < 256), decide_eq_true rfl, Bool.and_self]
    have hsplit := ladderEnd_split (BitVec.twoPow 256 j) u (rounds - (j + 1)) (j + 1) (Pairs.start u) false
    rw [Nat.sub_add_cancel hj, ladderRounds_zero_bits u hhigh, ladderEnd_succ, hone, ladderEnd_zero_bits u hlow] at hsplit
    rw [ladderFn_zmod, hsplit, first_arith_iterate, ratio_double_iterate]
    exact congrArg _ (ratio_first_one_bit hlt (natCast_ne_zero hlt hu) _)

end

theorem fact_prime_P : Fact P.Prime := ⟨Laws.prime_P⟩

/-! What X25519 makes of an input of small order (43_x25519.md R190, R191, R193). -/

theorem le32_zero : le32 0 = Vector.replicate 32 0 := by
  refine Vector.ext fun i hi => ?_
  rw [le32_getElem, Nat.zero_div, Vector.getElem_replicate]
  rfl

/-- 0, 1 and p − 1 are the field elements that are their own cubes. -/
theorem cube_eq_self_of_mem {u : Nat} (h : u ∈ [0, 1, P - 1]) : (u : ZMod P) ^ 3 = u := by
  simp only [List.mem_cons, List.not_mem_nil, or_false] at h
  obtain rfl | rfl | rfl := h
  · simp
  · simp
  · rw [Nat.cast_sub P_pos, ZMod.natCast_self]; ring

theorem clampValue_even (v : Bytes32) : (BitVec.ofNat 256 (clampValue v)).getLsbD 0 = false := by
  have heven : clampValue v % 2 = 0 := by have := eight_dvd_clampValue v; omega
  rw [BitVec.getLsbD, toNat_ofNat_clampValue, Nat.testBit_zero, heven]
  rfl

/-- X25519 completes with its function's bytes when both lengths are 32 (R191). -/
theorem exec_x25519_of_lengths {bk bu : Buf} {s : State} (bo : Buf) (hk : s.getLen bk = 32#6) (hu : s.getLen bu = 32#6) :
    exec (.x25519 bo bk bu) s = .next (s.setBuf bo (x25519Fn (s.getBuf bk) (s.getBuf bu))).markSuccess :=
  exec_of_noError (by simp [commandError, inputBuffers, hk, hu])

end Sys2Proof.Machine
end

section
/-! PROOFS. The statements of 42_ladder.md and 43_x25519.md about inputs of small order and small scalars settled. -/

namespace Sys2Proof.Machine

open Sys2Proof.Config

/-- Settles O29: 0 has order 2, no one bit leaves the point at infinity, and 1 = 2^0. -/
theorem ladderDegenerateInputs : Obligations.LadderDegenerateInputs := by
  have := fact_prime_P
  refine ⟨ladderFn_zero, fun k u _ => ladderFn_zero_bits u, fun u hu => eq_of_zmod_eq (ladderFn_lt _ _) hu ?_⟩
  exact ladderFn_twoPow (j := 0) hu (by decide)

/-- Settles O30: the scalar 2^j doubles j times. -/
theorem ladderDoublingConsistency : Obligations.LadderDoublingConsistency := by
  have := fact_prime_P
  intro x hx
  refine eq_of_zmod_eq (ladderFn_lt _ _) (ladderFn_lt _ _) ?_
  calc (ladderFn 4#256 x : ZMod P)
      = doubleAffine (doubleAffine x) := ladderFn_twoPow (j := 2) hx (by decide)
    _ = doubleAffine (ladderFn 2#256 x) := congrArg _ (ladderFn_twoPow (j := 1) hx (by decide)).symm
    _ = ladderFn 2#256 (ladderFn 2#256 x) := (ladderFn_twoPow (j := 1) (ladderFn_lt _ _) (by decide)).symm

/-- Settles O34: a clamped scalar is even, and the decoded input is a point of order up to 4. -/
theorem lowOrderInputsGiveZeroBytes : Obligations.LowOrderInputsGiveZeroBytes := by
  have := fact_prime_P
  intro bo bk bu s hk hu hmem
  rw [← decodeU_eq] at hmem
  have hout : x25519Fn (s.getBuf bk) (s.getBuf bu) = Vector.replicate 32 0 := by
    rw [x25519Fn, ladderFn_order4 (decodeU_lt _) (cube_eq_self_of_mem hmem) (clampValue_even _), le32_zero]
  rw [exec_x25519_of_lengths bo hk hu, hout]
  rfl

end Sys2Proof.Machine
end

section
/-! PROOFS. X25519 and BASEMUL (43_x25519.md R190 to R195): what the function's bytes encode, when the commands fail, and the stepwise sequence that writes the same bytes. -/

namespace Sys2Proof.Machine

open Sys2Proof.Config

/-! The function's bytes (R190). -/

/-- The output encodes the ladder's value: a field element loses no bit in 32 bytes. -/
theorem leSum_x25519Fn (kb ub : Bytes32) :
    leSum (x25519Fn kb ub) = ladderFn (BitVec.ofNat 256 (clampValue kb)) (decodeU ub) :=
  leSum_le32 (lt_two_pow_of_lt_P (ladderFn_lt _ _))

theorem leSum_le32_baseU : leSum (le32 baseU) = 9 := leSum_le32 (by decide)

/-- The built-in base point decodes to its own coordinate (R192). -/
theorem decodeU_le32_baseU : decodeU (le32 baseU) = 9 := by
  have hcanonical : leSum (le32 baseU) < P := by rw [leSum_le32_baseU]; decide +kernel
  rw [decodeU_of_canonical hcanonical, leSum_le32_baseU]

/-! What a command answers (R191, R192, R194). -/

/-- A command one of whose input buffers does not declare 32 bytes fails with INVALID_LENGTH (R130, R213). -/
theorem exec_of_input_length_ne {i : Instr} {n : Buf} {s : State} (hin : n ∈ inputBuffers i) (h : s.getLen n ≠ 32#6) :
    exec i s = .next (s.failedWith 1) :=
  exec_of_error (e := .invalidLength) (if_pos ⟨n, hin, h⟩)

/-- BASEMUL completes with X25519's function at the built-in base point when the scalar's length is 32 (R192). -/
theorem exec_basemul_of_length {bk : Buf} {s : State} (bo : Buf) (hk : s.getLen bk = 32#6) :
    exec (.basemul bo bk) s = .next (s.setBuf bo (x25519Fn (s.getBuf bk) (le32 baseU))).markSuccess :=
  exec_of_length rfl hk

/-- Two states on which a command's check and its output agree show the same error code and, without an error, the same output. -/
theorem exec_output_congr {i : Instr} {bo : Buf} {s s' t t' : State} (hcheck : commandError i s = commandError i s')
    (hout : (commandBody i s).getBuf bo = (commandBody i s').getBuf bo)
    (ht : exec i s = .next t) (ht' : exec i s' = .next t') :
    t.errcode = t'.errcode ∧ (t.errcode = 0 → t.getBuf bo = t'.getBuf bo) := by
  cases herror : commandError i s with
  | none =>
    obtain rfl := Host.Outcome.next.inj (ht.symm.trans (exec_of_noError herror))
    obtain rfl := Host.Outcome.next.inj (ht'.symm.trans (exec_of_noError (hcheck.symm.trans herror)))
    exact ⟨rfl, fun _ => hout⟩
  | some e =>
    obtain rfl := Host.Outcome.next.inj (ht.symm.trans (exec_of_error herror))
    obtain rfl := Host.Outcome.next.inj (ht'.symm.trans (exec_of_error (hcheck.symm.trans herror)))
    exact ⟨rfl, fun hzero => absurd hzero e.code_legal.1⟩

/-! The stepwise sequence (R195). -/

/-- Commands after a sequence that answers run from its answer. -/
theorem execAll_append {is : List Instr} {s t : State} (js : List Instr) (h : execAll is s = .next t) :
    execAll (is ++ js) s = execAll js t := by
  induction is generalizing s with
  | nil => exact congrArg (execAll js) (Host.Outcome.next.inj h)
  | cons i is ih =>
    rw [List.cons_append, execAll]
    rw [execAll] at h
    cases hi : exec i s with
    | next u => rw [hi] at h; exact ih h
    | fault r => nomatch r
    | refused r => rw [hi] at h; nomatch h

/-- LADDER leaves LadderFn of K and its operand in its result register, from any state (R165). -/
theorem getF_ladder (fd fa : FReg) (s : State) : (lfinBody fd (afterRounds fa s)).getF fd = ladderFn s.k (s.getF fa) := by
  rw [ladderFn, ← afterRounds_eq_ladderRounds, getF_lfinBody, if_pos rfl]

/-- CLAMP, then DECU: K and the register hold X25519's inputs, and the buffers are as before. -/
theorem execAll_clamp_decu {bk bu : Buf} {s : State} (f : FReg) (hk : s.getLen bk = 32#6) (hu : s.getLen bu = 32#6) :
    ∃ t, execAll [.clamp bk, .decu f bu] s = .next t ∧
      t.k = BitVec.ofNat 256 (clampValue (s.getBuf bk)) ∧ t.getF f = decodeU (s.getBuf bu) :=
  ⟨_, execAll_pair (exec_of_length rfl hk) (exec_of_length rfl hu), rfl, getF_setF_same _ f _⟩

/-- ENC at the end of a sequence (R136). -/
theorem execAll_enc (bo : Buf) (fa : FReg) (s : State) :
    ∃ t, execAll [.enc bo fa] s = .next t ∧ t.getLen bo = 32#6 ∧ t.getBuf bo = le32 (s.getF fa) :=
  ⟨(s.setBuf bo (le32 (s.getF fa))).markSuccess, rfl, getLen_setBuf_same s bo _, getBuf_setBuf_same s bo _⟩

/-- The stepwise ladder, then ENC of its result: the output holds the bytes of LadderFn of K and the operand. -/
theorem execAll_ladder_enc (f g : FReg) (bo : Buf) (s : State) :
    ∃ t, execAll (openLadder f 255 ++ [.lfin g, .enc bo g]) s = .next t ∧
      t.getLen bo = 32#6 ∧ t.getBuf bo = le32 (ladderFn s.k (s.getF f)) := by
  have hladder := (ladderIsStepwiseSequence g f s).trans (exec_ladder g f s)
  obtain ⟨t, henc, hlen, hbuf⟩ := execAll_enc bo g (lfinBody g (afterRounds f s)).markSuccess
  rw [getF_markSuccess, getF_ladder] at hbuf
  have hseq := (execAll_append [.enc bo g] hladder).trans henc
  rw [List.append_assoc] at hseq
  exact ⟨t, hseq, hlen, hbuf⟩

/-- The whole sequence leaves in its output buffer what X25519 writes. -/
theorem execAll_stepwise {bk bu : Buf} {s : State} (bo : Buf) (f g : FReg) (hk : s.getLen bk = 32#6) (hu : s.getLen bu = 32#6) :
    ∃ t, execAll ([.clamp bk, .decu f bu] ++ openLadder f 255 ++ [.lfin g, .enc bo g]) s = .next t ∧
      t.getLen bo = 32#6 ∧ t.getBuf bo = x25519Fn (s.getBuf bk) (s.getBuf bu) := by
  obtain ⟨u, hinputs, hscalar, hcoord⟩ := execAll_clamp_decu f hk hu
  obtain ⟨t, hladder, hlen, hbuf⟩ := execAll_ladder_enc f g bo u
  rw [hscalar, hcoord] at hbuf
  rw [List.append_assoc]
  exact ⟨t, (execAll_append _ hinputs).trans hladder, hlen, hbuf⟩

end Sys2Proof.Machine
end

section
/-! PROOFS. The statements of 43_x25519.md about X25519, BASEMUL and the stepwise sequence settled. -/

namespace Sys2Proof.Machine

/-- Settles O31: the input buffers are read before the output is written, and the output encodes a field element. -/
theorem x25519WritesItsFunction : Obligations.X25519WritesItsFunction := by
  intro bo bk bu s
  refine ⟨decode_encode (.x25519 bo bk bu), fun hk hu => ⟨x25519Fn (s.getBuf bk) (s.getBuf bu), ?_, ?_⟩, fun hne => ?_⟩
  · rw [leSum_x25519Fn, decodeU_eq]
  · exact exec_x25519_of_lengths bo hk hu
  · obtain hk | hu := hne
    · exact exec_of_input_length_ne (by simp [inputBuffers]) hk
    · exact exec_of_input_length_ne (by simp [inputBuffers]) hu

/-- Settles O32: BASEMUL's function is X25519's at the built-in base point, which decodes to 9. -/
theorem basemulMultipliesBasePoint : Obligations.BasemulMultipliesBasePoint := by
  intro bo bk s
  refine ⟨decode_encode (.basemul bo bk), fun hk => ⟨_, ?_, exec_basemul_of_length bo hk⟩, exec_of_length_ne rfl⟩
  rw [leSum_x25519Fn, decodeU_le32_baseU]

/-- Settles O33: the length check and the output bytes are functions of the input buffers and their lengths. -/
theorem x25519DependsOnInputsOnly : Obligations.X25519DependsOnInputsOnly := by
  intro bo bk bu s s' t t' hkbuf hklen
  refine ⟨exec_output_congr ?_ ?_, fun hubuf hulen => exec_output_congr ?_ ?_⟩
  · rw [commandError_of_input (bn := bk) s rfl, commandError_of_input (bn := bk) s' rfl, hklen]
  · simp only [commandBody, getBuf_setBuf_same, hkbuf]
  · simp [commandError, inputBuffers, hklen, hulen]
  · simp only [commandBody, getBuf_setBuf_same, hkbuf, hubuf]

/-- Settles O35: both runs leave X25519's function in the output buffer, and 32 bytes with value 9 are the built-in base point. -/
theorem stepwiseSequenceEqualsX25519 : Obligations.StepwiseSequenceEqualsX25519 := by
  intro bo bk bu f g s hk hu
  have hexec := exec_x25519_of_lengths bo hk hu
  refine ⟨?_, fun hnine => ?_⟩
  · obtain ⟨t', hseq, hlen, hbuf⟩ := execAll_stepwise bo f g hk hu
    exact ⟨_, t', hexec, hseq, hbuf.trans (getBuf_setBuf_same s bo _).symm, hlen.trans (getLen_setBuf_same s bo _).symm⟩
  · have hbase : s.getBuf bu = le32 Config.baseU := (le32_leSum _).symm.trans (congrArg le32 hnine)
    rw [exec_basemul_of_length bo hk, hexec, hbase]

end Sys2Proof.Machine
end

section
/-! PROOFS. Completion and command errors (60_exceptions.md R210 to R223): the code a command shows and what it depends on, the answer of every completion and step, a write to CMD, irq under the host's writes, and the steps up to a completion. -/

namespace Sys2Proof.Machine

/-! The code of an error (R211), and the causes of each (R213, R215). -/

theorem CmdError.code_cases (e : CmdError) : e.code = 1 ∨ e.code = 2 ∨ e.code = 3 := by
  cases e <;> decide

/-- ERRCODE after a completion: the code of the error, 0 without one (R211, R217). -/
def errcodeOf : Option CmdError → BitVec 4
  | none => 0
  | some e => e.code

theorem errcodeOf_injective : Function.Injective errcodeOf := by
  rintro (_ | _ | _ | _) (_ | _ | _ | _) <;> decide

/-- An input buffer of the command does not declare 32 bytes (R213). -/
abbrev lengthFails (i : Instr) (s : State) : Prop := ∃ n ∈ inputBuffers i, s.getLen n ≠ 32#6

/-- The command is out of the ladder's sequence (R215). -/
abbrev sequenceFails (i : Instr) (s : State) : Prop :=
  (i = .lstep ∧ (s.lact = false ∨ s.round = 0#9)) ∨ (∃ fd, i = .lfin fd ∧ (s.lact = false ∨ s.round ≠ 0#9))

/-- The commands that check the ladder's sequence have no input buffer. -/
theorem not_sequenceFails_of_lengthFails {i : Instr} {s : State} (h : lengthFails i s) : ¬ sequenceFails i s := by
  obtain ⟨n, hn, _⟩ := h
  rintro (⟨rfl, _⟩ | ⟨_, rfl, _⟩)
  · nomatch hn
  · nomatch hn

/-- Each error of a command has its own cause, and no two causes hold together. -/
theorem commandError_cases (i : Instr) (s : State) :
    (lengthFails i s ∧ ¬ sequenceFails i s ∧ commandError i s = some .invalidLength) ∨
    (¬ lengthFails i s ∧ sequenceFails i s ∧ commandError i s = some .sequence) ∨
    (¬ lengthFails i s ∧ ¬ sequenceFails i s ∧ commandError i s = none) := by
  by_cases hlength : lengthFails i s
  · exact .inl ⟨hlength, not_sequenceFails_of_lengthFails hlength, if_pos hlength⟩
  by_cases hsequence : sequenceFails i s
  · refine .inr (.inl ⟨hlength, hsequence, ?_⟩)
    obtain ⟨rfl, h⟩ | ⟨_, rfl, h⟩ := hsequence
    · exact (if_neg hlength).trans (if_pos h)
    · exact (if_neg hlength).trans (if_pos h)
  · refine .inr (.inr ⟨hlength, hsequence, ?_⟩)
    cases i with
    | lstep => exact (if_neg hlength).trans (if_neg fun h => hsequence (.inl ⟨rfl, h⟩))
    | lfin fd => exact (if_neg hlength).trans (if_neg fun h => hsequence (.inr ⟨fd, rfl, h⟩))
    | _ => exact if_neg hlength

theorem commandError_eq_invalidLength_iff {i : Instr} {s : State} : commandError i s = some .invalidLength ↔ lengthFails i s := by
  obtain ⟨hlength, _, h⟩ | ⟨hlength, _, h⟩ | ⟨hlength, _, h⟩ := commandError_cases i s <;> simp [h, hlength]

theorem commandError_eq_sequence_iff {i : Instr} {s : State} : commandError i s = some .sequence ↔ sequenceFails i s := by
  obtain ⟨_, hsequence, h⟩ | ⟨_, hsequence, h⟩ | ⟨_, hsequence, h⟩ := commandError_cases i s <;> simp [h, hsequence]

/-- Only a word that does not decode is illegal (R214). -/
theorem commandError_ne_illegalCommand (i : Instr) (s : State) : commandError i s ≠ some .illegalCommand := by
  obtain ⟨_, _, h⟩ | ⟨_, _, h⟩ | ⟨_, _, h⟩ := commandError_cases i s <;> rw [h] <;> nofun

/-- A command's error depends on LEN, ROUND and LACT only. -/
theorem commandError_congr (i : Instr) {s s' : State} (hlen : s.len = s'.len) (hround : s.round = s'.round)
    (hlact : s.lact = s'.lact) : commandError i s = commandError i s' := by
  unfold commandError State.getLen
  rw [hlen, hround, hlact]

/-! What STATUS and the latency show of a completion (R212, R217, 70_reset_and_hazards.md R247). -/

/-- STATUS shows the error, or success. -/
abbrev State.shows (t : State) (error : Option CmdError) : Prop := t.err = error.isSome ∧ t.errcode = errcodeOf error

theorem State.shows.err_iff {t : State} {error : Option CmdError} (h : t.shows error) : t.err = true ↔ t.errcode ≠ 0 := by
  obtain ⟨herr, hcode⟩ := h
  rw [herr, hcode, Option.isSome_iff_ne_none]
  exact errcodeOf_injective.ne_iff.symm

theorem State.shows.errcode_iff {t : State} {error : Option CmdError} (h : t.shows error) (e : CmdError) :
    t.errcode = e.code ↔ error = some e := by
  rw [h.2]
  exact errcodeOf_injective.eq_iff (b := some e)

/-- Every command answers a state that shows its error. -/
theorem exec_shows_commandError (i : Instr) (s : State) : ∃ t, exec i s = .next t ∧ t.shows (commandError i s) := by
  obtain ⟨hnone, h⟩ | ⟨e, he, h⟩ := exec_cases_of_commandError i s
  · exact ⟨_, h, by rw [hnone]; exact ⟨rfl, rfl⟩⟩
  · exact ⟨_, h, by rw [he]; exact ⟨rfl, rfl⟩⟩

/-- The error of the word in flight: its command's, or ILLEGAL_COMMAND (R214, R217). -/
def completionError (s : State) : Option CmdError :=
  match decode s.cur with
  | .ok i => commandError i s
  | .error _ => some .illegalCommand

theorem complete_shows_completionError (s : State) : ∃ t, complete s = .next t ∧ t.shows (completionError s) := by
  obtain ⟨i, hdecode, h⟩ | ⟨r, hdecode, h⟩ := complete_cases s <;> rw [h, completionError, hdecode]
  · exact exec_shows_commandError i s
  · exact ⟨_, rfl, rfl, rfl⟩

theorem completionError_congr {s s' : State} (hcur : s.cur = s'.cur) (hlen : s.len = s'.len) (hround : s.round = s'.round)
    (hlact : s.lact = s'.lact) : completionError s = completionError s' := by
  rw [completionError, completionError, hcur]
  cases decode s'.cur with
  | ok i => exact commandError_congr i hlen hround hlact
  | error _ => rfl

theorem latency_of_complete {s t : State} (h : complete s = .next t) : s.latency = latencyOf (fieldsOf s.cur).op t := by
  rw [State.latency, h]

theorem latencyOf_congr (op : Nat) {t t' : State} (herr : t.err = t'.err) (hcode : t.errcode = t'.errcode) :
    latencyOf op t = latencyOf op t' := by
  rw [latencyOf, latencyOf, herr, hcode]

theorem latencyOf_pos (op : Nat) (t : State) : 0 < latencyOf op t := by
  rw [latencyOf]
  split
  · exact Nat.succ_pos _
  · exact Nat.succ_pos _

/-- Every completion leaves the core idle with DONE = 1 (R217). -/
theorem complete_idle_done (s : State) : ∃ t, complete s = .next t ∧ t.busy = false ∧ t.done = true := by
  obtain ⟨u, _, h⟩ | ⟨e, h⟩ := complete_next s
  · exact ⟨_, h, rfl, rfl⟩
  · exact ⟨_, h, rfl, rfl⟩

/-- Every step answers: only a completion could stop, and none does. -/
theorem step_answers (s : State) : ∃ t, step s = .next t := by
  obtain ⟨_, _, h⟩ | ⟨_, _, h⟩ | ⟨_, _, h⟩ | ⟨_, h⟩ | ⟨_, h⟩ | ⟨_, h⟩ := step_cases s
  case inr.inl =>
    obtain ⟨t, hcomplete, _⟩ := complete_idle_done s.popEvent
    exact ⟨t, h.trans hcomplete⟩
  all_goals exact ⟨_, h⟩

/-! A write to CMD (R218, R219). -/

theorem writeCmd_of_idle {s : State} (v : Word) (hidle : s.busy = false) : s.writeCmd v = s.accept v := by
  rw [State.writeCmd, hidle, if_neg Bool.false_ne_true]

theorem writeCmd_of_busy {s : State} (v : Word) (hbusy : s.busy = true) : s.writeCmd v = s.raiseCmdLost := by
  rw [State.writeCmd, hbusy, if_pos rfl]

theorem busWrite_cmd (s : State) (v : Word) : s.busWrite 0x000 .word v = s.writeCmd v :=
  busWrite_offset_unblocked (r := .cmd) v (blocks_of_not_blockable rfl)

/-- The step that takes a 32-bit write to CMD, with reset released. -/
theorem step_of_cmd_write {s : State} {v : Word} (hnext : s.hostWritesNext 0x000 v) (hreleased : s.inReset = false) :
    step s = .next (s.popEvent.writeCmd v) :=
  (step_of_host hnext).trans (congrArg _ (hostAccess_hostWrite s.popEvent (r := .cmd) v hreleased (blocks_of_not_blockable rfl)))

/-! irq under the host's writes (R220). -/

theorem irq_eq_true_iff {s : State} : s.irq = true ↔ s.ie = true ∧ s.done = true := Bool.and_eq_true_iff

theorem irq_of_not_done {s : State} (h : s.done = false) : s.irq = false := by
  rw [State.irq, h, Bool.and_false]

theorem irq_of_not_enabled {s : State} (h : s.ie = false) : s.irq = false := by
  rw [State.irq, h, Bool.false_and]

/-- No register write sets DONE. -/
theorem writeReg_done {s : State} (r : Reg) (v : Word) (h : s.done = false) : (s.writeReg r v).done = false := by
  cases r with
  | cmd =>
    obtain ⟨_, hw⟩ | ⟨_, hw⟩ := writeCmd_cases s v <;> rw [State.writeReg, hw]
    · exact h
    · rfl
  | status => rw [State.writeReg, State.clearStatus_done, h, Bool.false_and]
  | ctrl | lstate | len _ | word _ _ => exact h

/-- No host access sets DONE. -/
theorem hostAccess_done {s : State} (a : Access) (h : s.done = false) : (s.hostAccess a).done = false := by
  obtain ⟨r, v, _, _, _, haccess⟩ | ⟨haccess, _⟩ := hostAccess_writes_or_reports s a <;> rw [haccess]
  · exact writeReg_done r v h
  · exact h

/-! The steps up to a completion (70_reset_and_hazards.md R249). -/

theorem hostAccess_busy {s : State} (a : Access) (hbusy : s.busy = true) : (s.hostAccess a).busy = true :=
  (congrArg State.busy (hostAccess_of_busy a hbusy)).trans hbusy

/-- Without reset, a step with a command in flight completes it, or uses up an event and leaves it in flight. -/
theorem step_completes_or_waits {s : State} (hbusy : s.busy = true) (hreset : ¬ s.resetNext) :
    ∃ t, step s = .next t ∧
      ((t.busy = false ∧ t.done = true) ∨ (t.busy = true ∧ t.sched = s.sched.tail)) := by
  cases hnext : s.nextEvent with
  | host a =>
    obtain ⟨_, _, _, _, _, _, hsched⟩ := sameCore_hostAccess s.popEvent a
    exact ⟨_, step_of_host hnext, .inr ⟨hostAccess_busy a hbusy, hsched⟩⟩
  | coreTurn =>
    obtain ⟨t, hcomplete, hdone⟩ := complete_idle_done s.popEvent
    exact ⟨t, (step_of_coreTurn hnext hbusy).trans hcomplete, .inl hdone⟩
  | reset => exact absurd (.inl hnext) hreset
  | assertReset => exact absurd (.inr hnext) hreset
  | releaseReset =>
    exact ⟨{ s.popEvent with inReset := false }, by rw [step_eq_runEvent, hnext, runEvent], .inr ⟨hbusy, rfl⟩⟩

/-- A run of any machine goes on from its first step. -/
theorem run_succ_of_step {M : Host.Core} {s t : M.State} (n : Nat) (h : M.step s = .next t) : M.run (n + 1) s = M.run n t := by
  rw [Host.Core.run, h]

/-- With no reset among the events to come, a command in flight completes at the latest one step after the last of them. -/
theorem run_completes {s : State} (es : List Event) (hsched : s.sched = es) (hbusy : s.busy = true)
    (hreset : ∀ e ∈ es, e ≠ .reset ∧ e ≠ .assertReset) :
    ∃ n t, n ≤ es.length + 1 ∧ Host.Core.run core n s = .next t ∧ t.busy = false ∧ t.done = true := by
  induction es generalizing s with
  | nil =>
    have hturn : s.nextEvent = .coreTurn := by rw [State.nextEvent, hsched, List.headD_nil]
    obtain ⟨t, hcomplete, hdone⟩ := complete_idle_done s.popEvent
    have hstep := (step_of_coreTurn hturn hbusy).trans hcomplete
    exact ⟨1, t, Nat.le_refl 1, run_succ_of_step (M := core) 0 hstep, hdone⟩
  | cons e es ih =>
    obtain ⟨hhead, htail⟩ := List.forall_mem_cons.mp hreset
    have hnext : s.nextEvent = e := by rw [State.nextEvent, hsched, List.headD_cons]
    have hnoReset : ¬ s.resetNext := by rw [State.resetNext, hnext]; exact not_or.mpr hhead
    obtain ⟨u, hstep, hdone | ⟨hwait, hu⟩⟩ := step_completes_or_waits hbusy hnoReset
    · exact ⟨1, u, Nat.le_add_left 1 _, run_succ_of_step (M := core) 0 hstep, hdone⟩
    · rw [hsched] at hu
      obtain ⟨n, t, hn, hrun, hdone⟩ := ih hu hwait htail
      exact ⟨n + 1, t, Nat.succ_le_succ hn, (run_succ_of_step (M := core) n hstep).trans hrun, hdone⟩

end Sys2Proof.Machine
end

section
/-! PROOFS. The statements of 60_exceptions.md settled. -/

namespace Sys2Proof.Machine

/-- Settles O37: a success writes data state only, and a failure writes STATUS with one of the three codes. -/
theorem completionSucceedsOrChangesOnlyStatus : Obligations.CompletionSucceedsOrChangesOnlyStatus := by
  intro s
  obtain ⟨u, hdata, h⟩ | ⟨e, h⟩ := complete_next s
  · exact ⟨_, h, .inl (congrArg State.markSuccess hdata)⟩
  · exact ⟨_, h, .inr ⟨rfl, e.code_cases⟩⟩

/-- Settles O38: a command shows the error of its checks, and each error has its own code. -/
theorem errorCodesHaveTheirCauses : Obligations.ErrorCodesHaveTheirCauses := by
  intro i s
  obtain ⟨t, h, hshows⟩ := exec_shows_commandError i s
  exact ⟨t, h, (hshows.errcode_iff .invalidLength).trans commandError_eq_invalidLength_iff,
    (hshows.errcode_iff .sequence).trans commandError_eq_sequence_iff,
    mt (hshows.errcode_iff .illegalCommand).mp (commandError_ne_illegalCommand i s), hshows.err_iff⟩

/-- Settles O39: the completion's other branch. -/
theorem illegalWordFails : Obligations.IllegalWordFails := fun _ _ => complete_of_error

/-- Settles O40: a completion leaves the core idle, and an idle core accepts. -/
theorem nextCommandAcceptedAfterCompletion : Obligations.NextCommandAcceptedAfterCompletion := by
  intro s v
  obtain ⟨t, h, hidle, _⟩ := complete_idle_done s
  exact ⟨t, h, hidle, (busWrite_cmd t v).trans (writeCmd_of_idle v hidle)⟩

/-- Settles O41: each clause by what the write does to IE and DONE. -/
theorem irqIsEnableAndDone : Obligations.IrqIsEnableAndDone := by
  intro s v
  obtain ⟨_, hstatus, hctrl, _⟩ := busWriteEffects s v
  refine ⟨irq_eq_true_iff, ?_, fun hclear => ?_, fun hidle => ?_, fun hdisable => ?_, fun hbusy => ?_, rfl,
    fun a hdone => ⟨hostAccess_done a hdone, irq_of_not_done (hostAccess_done a hdone)⟩⟩
  · obtain ⟨t, h, _⟩ := complete_idle_done s
    exact ⟨t, h, irq_of_complete h⟩
  · rw [hstatus]
    exact irq_of_not_done (if_pos hclear)
  · rw [busWrite_cmd, writeCmd_of_idle v hidle]
    exact irq_of_not_done rfl
  · rw [hctrl]
    exact irq_of_not_enabled hdisable
  · rw [busWrite_cmd, writeCmd_of_busy v hbusy]
    rfl

/-- Settles O43: by the events a step can take. -/
theorem stepNeverStops : Obligations.StepNeverStops := step_answers

/-- Settles O48, by induction on the events to come. -/
theorem acceptedCommandCompletes : Obligations.AcceptedCommandCompletes := fun s hbusy => run_completes s.sched rfl hbusy

/-- Settles O49: the error shown is a function of the four, and the latency of the word and the error shown. -/
theorem outcomeAndLatencyIgnoreSecrets : Obligations.OutcomeAndLatencyIgnoreSecrets := by
  intro s s' hcur hlen hround hlact
  obtain ⟨t, h, herr, hcode⟩ := complete_shows_completionError s
  obtain ⟨t', h', herr', hcode'⟩ := complete_shows_completionError s'
  rw [← completionError_congr hcur hlen hround hlact] at herr' hcode'
  have herrs := herr.trans herr'.symm
  have hcodes := hcode.trans hcode'.symm
  refine ⟨t, t', h, h', herrs, hcodes, ?_, ?_⟩
  · rw [latency_of_complete h, latency_of_complete h', hcur]
    exact latencyOf_congr _ herrs hcodes
  · rw [latency_of_complete h]
    exact latencyOf_pos _ t

/-- Settles O55: the step is the write to CMD, by its two cases. -/
theorem cmdWriteAcceptedOrLost : Obligations.CmdWriteAcceptedOrLost := by
  intro s v hnext hreleased
  rw [step_of_cmd_write hnext hreleased]
  exact ⟨fun hidle => congrArg _ (writeCmd_of_idle v hidle), fun hbusy => congrArg _ (writeCmd_of_busy v hbusy)⟩

end Sys2Proof.Machine
end
